-- ==== Sys2Proof/Word.lean ====
section
/-! DEFINITION. The bit patterns the block moves at its interfaces (20_memory.md R87). Everything else is a
mathematical integer (00_scope.md R12). -/

namespace Sys2Proof

/-- One serial byte, or one byte of a frame (R11). -/
abbrev Byte := BitVec 8

/-- A 16-bit pattern: `vbat`, `ibus`, a 2-byte frame field, a configuration register (R30, R36). -/
abbrev Half := BitVec 16

/-- A 32-bit pattern: a 4-byte field (R133). -/
abbrev Word32 := BitVec 32

end Sys2Proof
end

