-- ==== Sys2Proof/Machine/Tables.lean ====
section
/-! DEFINITION. The default constant tables of 30_encoding.md: HALL_TABLE (R103), BLOCK_TABLE (R105), SINE_LUT (R107)
and the id profiles CMD_CODE (R130) and RSP_CODE (R131). Each is the default of a parameter of 00_scope.md R8; the
machine reads the tables of its configuration, never these directly. -/

namespace Sys2Proof

/-- One row of BLOCK_TABLE: the sign that multiplies the PWM value on phases Y, B and G (R105). -/
structure Signs where
  y : Int
  b : Int
  g : Int
deriving DecidableEq, Repr

/-- CMD_CODE: the command-id byte of each of the eight commands (R130). -/
structure CmdCode where
  ena : Byte
  dis : Byte
  pow : Byte
  dog : Byte
  mod : Byte
  res : Byte
  spe : Byte
  xxx : Byte
deriving DecidableEq, Repr

/-- RSP_CODE: the response-id byte of NOR and of each of the eight responses (R131). -/
structure RspCode where
  nor : Byte
  speed : Byte
  position : Byte
  battery : Byte
  current : Byte
  pwm : Byte
  watchdog : Byte
  pidf : Byte
  telemetry : Byte
deriving DecidableEq, Repr

namespace Tables

/-- HALL_TABLE default, index-ordered; 7 is NOFUNC (R103). -/
def hallDefault : List Nat := [7, 0, 2, 1, 4, 5, 3, 7]

/-- BLOCK_TABLE default, one row per sector (R105). -/
def blockDefault : List Signs :=
  [⟨0, 1, -1⟩, ⟨1, 0, -1⟩, ⟨1, -1, 0⟩, ⟨0, -1, 1⟩, ⟨-1, 0, 1⟩, ⟨-1, 1, 0⟩]

/-- CMD_CODE default profile (R130). -/
def cmdDefault : CmdCode :=
  { ena := 3#8, dis := 4#8, pow := 5#8, dog := 6#8, mod := 7#8, res := 8#8, spe := 9#8, xxx := 10#8 }

/-- RSP_CODE default profile (R131). -/
def rspDefault : RspCode :=
  { nor := 0#8, speed := 1#8, position := 2#8, battery := 3#8, current := 4#8, pwm := 5#8, watchdog := 6#8, pidf := 7#8,
    telemetry := 8#8 }

/-- SINE_LUT for degrees 0..89 (R107). -/
def sineLutQ1 : List Int :=
  [0, 17, 35, 52, 70, 87, 105, 122, 139, 156,
   174, 191, 208, 225, 242, 259, 276, 292, 309, 326,
   342, 358, 375, 391, 407, 423, 438, 454, 469, 485,
   500, 515, 530, 545, 559, 574, 588, 602, 616, 629,
   643, 656, 669, 682, 695, 707, 719, 731, 743, 755,
   766, 777, 788, 799, 809, 819, 829, 839, 848, 857,
   866, 875, 883, 891, 899, 906, 914, 921, 927, 934,
   940, 946, 951, 956, 961, 966, 970, 974, 978, 982,
   985, 988, 990, 993, 995, 996, 998, 999, 999, 1000]

/-- SINE_LUT for degrees 90..179 (R107). -/
def sineLutQ2 : List Int :=
  [1000, 1000, 999, 999, 998, 996, 995, 993, 990, 988,
   985, 982, 978, 974, 970, 966, 961, 956, 951, 946,
   940, 934, 927, 921, 914, 906, 899, 891, 883, 875,
   866, 857, 848, 839, 829, 819, 809, 799, 788, 777,
   766, 755, 743, 731, 719, 707, 695, 682, 669, 656,
   643, 629, 616, 602, 588, 574, 559, 545, 530, 515,
   500, 485, 469, 454, 438, 423, 407, 391, 375, 358,
   342, 326, 309, 292, 276, 259, 242, 225, 208, 191,
   174, 156, 139, 122, 105, 87, 70, 52, 35, 17]

/-- SINE_LUT for degrees 180..269 (R107). -/
def sineLutQ3 : List Int :=
  [0, -17, -35, -52, -70, -87, -105, -122, -139, -156,
   -174, -191, -208, -225, -242, -259, -276, -292, -309, -326,
   -342, -358, -375, -391, -407, -423, -438, -454, -469, -485,
   -500, -515, -530, -545, -559, -574, -588, -602, -616, -629,
   -643, -656, -669, -682, -695, -707, -719, -731, -743, -755,
   -766, -777, -788, -799, -809, -819, -829, -839, -848, -857,
   -866, -875, -883, -891, -899, -906, -914, -921, -927, -934,
   -940, -946, -951, -956, -961, -966, -970, -974, -978, -982,
   -985, -988, -990, -993, -995, -996, -998, -999, -999, -1000]

/-- SINE_LUT for degrees 270..359 (R107). -/
def sineLutQ4 : List Int :=
  [-1000, -1000, -999, -999, -998, -996, -995, -993, -990, -988,
   -985, -982, -978, -974, -970, -966, -961, -956, -951, -946,
   -940, -934, -927, -921, -914, -906, -899, -891, -883, -875,
   -866, -857, -848, -839, -829, -819, -809, -799, -788, -777,
   -766, -755, -743, -731, -719, -707, -695, -682, -669, -656,
   -643, -629, -616, -602, -588, -574, -559, -545, -530, -515,
   -500, -485, -469, -454, -438, -423, -407, -391, -375, -358,
   -342, -326, -309, -292, -276, -259, -242, -225, -208, -191,
   -174, -156, -139, -122, -105, -87, -70, -52, -35, -17]

/-- SINE_LUT default: 1000·sin(d°) rounded, one entry per degree (R107). -/
def sineDefault : List Int := sineLutQ1 ++ sineLutQ2 ++ sineLutQ3 ++ sineLutQ4

end Tables

end Sys2Proof
end

