-- ==== Sys2Proof/Config.lean ====
section
/-! DEFINITION. The build parameters of 00_scope.md R8 as one record, the constants the source gives, the refusals of
60_exceptions.md R517 (the bounds PB1 to PB6 of R9, HALL_TABLE, the match of the tables, CMD_CODE), the domains of R8,
and the values that no rule fixes.

The record stands in State (`State.cfg`) and no transaction writes it, so a statement about every state is a statement
about every configuration. `Config.testProfile` is the spec's TP (R8); it is only what the reset state carries
(DESIGN CHOICE, log 6, unsafe). -/

namespace Sys2Proof

/-- The waveform selection `commMode`: 0 block, 1 sine (R141). -/
inductive Machine.CommMode where
  | block | sine
deriving DecidableEq, Repr

/-- PWM_IN_MAX, given (R8). -/
def pwmInMax : Int := 1000

/-- SPEED_SP_MAX in mm/s, given (R8). -/
def speedSpMax : Int := 5000

/-- SINE_SHIFT, given (R8). -/
def sineShift : Nat := 3

/-- PWM_MARGIN in counts, given (R8). -/
def pwmMargin : Int := 10

/-- GAIN_SHIFT, given (R8). -/
def gainShift : Nat := 15

/-- MAX_PAYLOAD, given (R8). -/
def maxPayload : Nat := 9

/-- FRAME_OVERHEAD, derived from the wire format (R8, R120). -/
def frameOverhead : Nat := 8

/-- The size of the frame buffer: MAX_PAYLOAD + FRAME_OVERHEAD (R80). -/
def bufSize : Nat := maxPayload + frameOverhead

/-- The code of the sentinel NOFUNC (R101). -/
def noFunc : Nat := 7

/-- HALL_TABLE and BLOCK_TABLE as ONE field (R106), each with the revision it was taken from: the tables are a matched
set when they are "from the same revision" (R106; log 10). -/
structure CommTables where
  hallRevision : Nat
  hall : List Nat
  blockRevision : Nat
  block : List Signs
deriving DecidableEq, Repr

/-- The parameters of R8 that a build fixes. The rows that R8 marks given or derived, whose one value the source fixes,
are the constants above. -/
structure Config where
  tables : CommTables
  sineLut : List Int
  sineNorm : Nat
  phaseAdv : Nat
  pwmRes : Nat
  speedTicksFactor : Nat
  maxPhasePeriod : Nat
  speedShift : Nat
  pwmShift : Nat
  kp : Int
  ki : Int
  kf : Int
  kfo : Int
  iLimit : Nat
  minSpeed : Nat
  stepperK : Nat
  stepThreshReset : Half
  commModeReset : Machine.CommMode
  wdtReset : Half
  distPerCycle : Int
  crcCheckEn : Bool
  cmdCode : CmdCode
  rspCode : RspCode
  replyDest : BitVec 4
  addrFilter : Option (BitVec 4)
deriving DecidableEq, Repr

/-- Why the model refuses a configuration: the cases of R517 and no other. All are safe: the model stops, as R517 says it
does. -/
inductive ConfigFlaw where
  /-- PB1 fails: (VMAX + 1)·2^SPEED_SHIFT < 2^31 (R9). -/
  | pb1
  /-- PB2 fails: EMAX·|KP| < 2^31 (R9). -/
  | pb2
  /-- PB3 fails: EMAX·|KI| + ILIMIT < 2^31 (R9). -/
  | pb3
  /-- PB4 fails: SPEED_SP_MAX·|KF| + |KFO| < 2^31 (R9). -/
  | pb4
  /-- PB5 fails: (PWM_IN_MAX + 1)·2^PWM_SHIFT < 2^31 (R9). -/
  | pb5
  /-- PB6 fails: MAX_PHASE_PERIOD or PWM_RES out of bounds (R9). -/
  | pb6
  /-- HALL_TABLE is not a bijection of the six valid codes onto 0..5 with NOFUNC at 000 and 111 (R101, R201). -/
  | hallTable
  /-- BLOCK_TABLE is not matched with HALL_TABLE: they are of different revisions (R106). -/
  | tablesUnmatched
  /-- CMD_CODE is not injective or ENA ≠ 3 (R130). -/
  | cmdCode
deriving DecidableEq, Repr

/-- The eight codes in R130's order. -/
def CmdCode.codes (c : CmdCode) : List Byte := [c.ena, c.dis, c.pow, c.dog, c.mod, c.res, c.spe, c.xxx]

/-- The nine codes in R131's order. -/
def RspCode.codes (c : RspCode) : List Byte :=
  [c.nor, c.speed, c.position, c.battery, c.current, c.pwm, c.watchdog, c.pidf, c.telemetry]

/-- A BLOCK_TABLE row has exactly one 0, one +1 and one -1 (R105). -/
def Signs.legal (r : Signs) : Bool :=
  [(⟨0, 1, -1⟩ : Signs), ⟨0, -1, 1⟩, ⟨1, 0, -1⟩, ⟨-1, 0, 1⟩, ⟨1, -1, 0⟩, ⟨-1, 1, 0⟩].contains r

namespace Config

/-- EMAX = SPEED_SP_MAX + VMAX + 1 bounds |error|, with VMAX = SPEED_TICKS_FACTOR (R9). -/
def eMax (c : Config) : Int := speedSpMax + (c.speedTicksFactor : Int) + 1

/-- The numeric domains of R8 that no bound PB states. -/
def numbersOk (c : Config) : Bool :=
  1 ≤ c.sineNorm && c.phaseAdv ≤ 359 && 1 ≤ c.speedTicksFactor && 7 ≤ c.speedShift && c.speedShift ≤ 14
    && c.pwmShift ≤ 15

/-- The one value that R8 gives each of the three reset parameters. -/
def resetsOk (c : Config) : Bool :=
  c.stepThreshReset == 500#16 && c.commModeReset == .block && c.wdtReset == 0#16

/-- RSP_CODE is injective with NOR = 0 (R131). -/
def rspCodeOk (c : RspCode) : Bool := decide c.codes.Nodup && c.nor == 0#8

/-- HALL_TABLE is legal: 8 entries, NOFUNC at codes 000 and 111, the other six a permutation of 0..5 (R101, R201). -/
def hallTableOk (t : List Nat) : Bool :=
  match t with
  | [a, b, c, d, e, f, g, h] =>
    a == noFunc && h == noFunc && [b, c, d, e, f, g].all (· < 6) && decide [b, c, d, e, f, g].Nodup
  | _ => false

/-- BLOCK_TABLE is legal: six rows, each legal (R105). -/
def blockTableOk (t : List Signs) : Bool := t.length == 6 && t.all Signs.legal

/-- SINE_LUT is legal: 360 entries within -1000..1000 (R107). -/
def sineLutOk (t : List Int) : Bool := t.length == 360 && t.all (fun v => -1000 ≤ v && v ≤ 1000)

/-- Every parameter lies in its domain (R8, R105, R107, R131). Not a refusal: R517 lists none for it, so the machine runs
outside the domains too, by the same rules (log 11). -/
def inDomain (c : Config) : Bool :=
  c.numbersOk && c.resetsOk && blockTableOk c.tables.block && sineLutOk c.sineLut && rspCodeOk c.rspCode

/-- The first rule of R517 that a configuration breaks, if any (R9, R101, R106, R130, R201). -/
def check (c : Config) : Option ConfigFlaw :=
  if !hallTableOk c.tables.hall then some .hallTable
  else if ¬ ((c.speedTicksFactor : Int) + 1) * 2 ^ c.speedShift < 2 ^ 31 then some .pb1
  else if ¬ c.eMax * c.kp.natAbs < 2 ^ 31 then some .pb2
  else if ¬ c.eMax * c.ki.natAbs + c.iLimit < 2 ^ 31 then some .pb3
  else if ¬ speedSpMax * c.kf.natAbs + c.kfo.natAbs < 2 ^ 31 then some .pb4
  else if ¬ (pwmInMax + 1) * 2 ^ c.pwmShift < 2 ^ 31 then some .pb5
  else if ¬ (1 ≤ c.maxPhasePeriod ∧ c.maxPhasePeriod ≤ 65535 ∧ 2 * pwmMargin + 2 ≤ c.pwmRes) then some .pb6
  else if c.tables.hallRevision ≠ c.tables.blockRevision then some .tablesUnmatched
  else if ¬ (c.cmdCode.codes.Nodup ∧ c.cmdCode.ena = 3#8) then some .cmdCode
  else none

/-- A configuration that the spec describes: not refused (R9, R517), every parameter in its domain (R8). -/
abbrev Legal (c : Config) : Prop := c.check = none ∧ c.inDomain = true

/-- The spec's default pair of tables (R103, R105). -/
def defaultTables : CommTables :=
  { hallRevision := 0, hall := Tables.hallDefault, blockRevision := 0, block := Tables.blockDefault }

/-- The test profile TP of R8 with the default tables and id profiles. -/
def testProfile : Config :=
  { tables := defaultTables
    sineLut := Tables.sineDefault
    sineNorm := 1000
    phaseAdv := 0
    pwmRes := 2250
    speedTicksFactor := 100000
    maxPhasePeriod := 2000
    speedShift := 7
    pwmShift := 2
    kp := 16384
    ki := 328
    kf := 6554
    kfo := 1638400
    iLimit := 9830400
    minSpeed := 20
    stepperK := 1666
    stepThreshReset := 500#16
    commModeReset := .block
    wdtReset := 0#16
    distPerCycle := 3
    crcCheckEn := true
    cmdCode := Tables.cmdDefault
    rspCode := Tables.rspDefault
    replyDest := 0
    addrFilter := none }

/-- FREE VALUE: the quotient of a division by zero, which `tdiv` of R13 leaves out (b ≠ 0). No reachable state divides
by zero (R274, R310); the value is open so that no claim can lean on it. DESIGN CHOICE (log 9), safe. -/
opaque divByZero : Int → Int

/-- FREE VALUE: which of the coincident strobes goes first at the n-th open choice (R470: any order). DESIGN CHOICE
(log 2), safe. -/
opaque strobeOrder : Nat → Nat

/-- FREE VALUE: what a read at an offset of 17 or more gives. The frame buffer has no such byte and the offset "is never
formed" (R80), yet every transaction is total in every state (R500). DESIGN CHOICE (log 13), safe. -/
opaque beyondBuffer : Nat → Byte

/-- FREE VALUE: the sign of a phase (0 Y, 1 B, 2 G) in a sector whose row BLOCK_TABLE lacks, which R105 excludes.
DESIGN CHOICE (log 11), safe. -/
opaque missingSign : Nat → Nat → Int

/-- FREE VALUE: the sine at an angle whose entry SINE_LUT lacks, which R107 excludes. DESIGN CHOICE (log 11), safe. -/
opaque missingSine : Nat → Int

/-- FREE VALUE: how far above PWM_MARGIN a pulse port of 16 bits (R87) stands for a compare value that it cannot hold,
which takes a PWM_RES above 65545 (R8 has no upper bound). DESIGN CHOICE (log 12), safe. -/
opaque widePulse : Int → Fin 65526

end Config

end Sys2Proof
end

