-- ==== Sys2Proof/Machine/Arith.lean ====
section
/-! DEFINITION. The notation of 00_scope.md R11 to R13: arithmetic primitives on exact integers, and the fixed-width
patterns that the wire carries, little-endian (20_memory.md R83). -/

namespace Sys2Proof.Machine

/-- `asr(v, n)` = floor(v / 2^n) (R13). -/
def asr (v : Int) (n : Nat) : Int := v / 2 ^ n

/-- `tdiv(a, b)`: the quotient rounded toward zero for b ≠ 0 (R13); the free value `Config.divByZero a` for b = 0, where
R13 gives none (log 9). -/
def tdiv (a b : Int) : Int := if b = 0 then Config.divByZero a else a.tdiv b

/-- `clamp(v, lo, hi)` (R13). -/
def clamp (v lo hi : Int) : Int := if v < lo then lo else if hi < v then hi else v

/-- `sgn(v)` (R13). -/
def sgn (v : Int) : Int := if 0 < v then 1 else if v < 0 then -1 else 0

/-- `lo16(v)` = v mod 2^16 (R12). -/
def lo16 (v : Int) : Half := BitVec.ofInt 16 v

/-- `lo32(v)` = v mod 2^32 (R12). -/
def lo32 (v : Int) : Word32 := BitVec.ofInt 32 v

/-- `wrap32(v)` = sext_32(lo32(v)) (R12). -/
def wrap32 (v : Int) : Int := (lo32 v).toInt

/-- The two bytes of a 16-bit pattern, least significant first (R83). -/
def bytes16 (h : Half) : List Byte := [h.extractLsb' 0 8, h.extractLsb' 8 8]

/-- The four bytes of a 32-bit pattern, least significant first (R83). -/
def bytes32 (w : Word32) : List Byte :=
  [w.extractLsb' 0 8, w.extractLsb' 8 8, w.extractLsb' 16 8, w.extractLsb' 24 8]

/-- `le16(v)` (R12). -/
def le16 (v : Int) : List Byte := bytes16 (lo16 v)

/-- `le32(v)` (R12). -/
def le32 (v : Int) : List Byte := bytes32 (lo32 v)

/-- The 16-bit pattern of a little-endian byte pair (R83). -/
def half (b0 b1 : Byte) : Half := b1 ++ b0

/-- The 32-bit pattern of four little-endian bytes (R83). -/
def word (b0 b1 b2 b3 : Byte) : Word32 := b3 ++ b2 ++ b1 ++ b0

/-- `rd_s16(b0, b1)` (R12). -/
def rdS16 (b0 b1 : Byte) : Int := (half b0 b1).toInt

/-- `rd_u16(b0, b1)` as a 16-bit pattern (R12): the registers it is written to are uint16 (R36, R37). -/
def rdU16 (b0 b1 : Byte) : Half := half b0 b1

/-- What a 16-bit pulse port (R30, R35, R87) holds for a compare value of R240 or R550: the value where 16 bits hold it;
else, where R13 makes the assignment no legal one, some 16-bit value from PWM_MARGIN on (R30; log 12). -/
def pulsePort (p : Int) : Half :=
  if p < 2 ^ 16 then BitVec.ofInt 16 p else BitVec.ofNat 16 (10 + (Config.widePulse p).val)

end Sys2Proof.Machine
end

