-- ==== Sys2Proof/Syntax.lean ====
section
/-! DEFINITION. The operation map of 30_encoding.md R142: one constructor of `Instr` per row of spec/opcode_table.json.
Four transactions, twenty sub-operations, nine frame commands (selected by the cmdId byte) and ten frame responses
(selected by the rspId byte). Beside it, the two records that operands and State share: the input ports and the frame
that the parser hands over by value. -/

namespace Sys2Proof

/-- One sample of the block's input ports (10_state.md R30). `rst`, `ctrlTick`, `rxValid` and `wdtTick` are the strobes;
the rest are levels. A sample without a strobe only sets levels (`SET`, R143). -/
structure Ports where
  rst : Bool
  ctrlTick : Bool
  rxValid : Bool
  wdtTick : Bool
  hall : BitVec 3
  rxByte : Byte
  overcurrent : Bool
  vbat : Half
  ibus : Half
deriving DecidableEq, Repr

/-- What a validated frame carries to the dispatcher (R120, R366 "passed by value"): the seq and dest nibbles, the
command and response ids and the payload, whose length is `len`. SOM, CRC and EOM are checked and dropped. -/
structure Frame where
  seq : BitVec 4
  dest : BitVec 4
  cid : Byte
  rid : Byte
  payload : List Byte
deriving DecidableEq, Repr

/-- The operations of the block, one constructor per row of spec/opcode_table.json. Signed operands are two's-complement
patterns of the width the table gives. -/
inductive Instr where
  -- transactions
  /-- RESET (R450). -/
  | reset
  /-- CTRL_TICK (R451): the hall level and the overcurrent level at the strobe. -/
  | ctrlTick (hall : BitVec 3) (overcurrent : Bool)
  /-- RX_BYTE (R460): the received byte and the vbat and ibus levels at the strobe. -/
  | rxByte (b : Byte) (vbat ibus : Half)
  /-- WDT_TICK (R465). -/
  | wdtTick
  -- sub-operations
  /-- HALL_STAGE (R208). -/
  | hallStage (c : BitVec 3)
  /-- HALL_DECODE (R200). -/
  | hallDecode (c : BitVec 3)
  /-- SPEED_STAGE (R279). -/
  | speedStage
  /-- SPEED_UPDATE (R275): `raw`, a signed integer. -/
  | speedUpdate (raw : Word32)
  /-- CTRL_STAGE (R330). -/
  | ctrlStage
  /-- STEPPER_STEP (R310). -/
  | stepperStep
  /-- PIDF_EVAL (R320). -/
  | pidfEval
  /-- PWM_FILTER (R327): the filter input, signed. -/
  | pwmFilter (x : Half)
  /-- SYNTH_STAGE (R242). -/
  | synthStage
  /-- BLOCK_COMMUTATE (R230): signed PWM value and sector 0..5. -/
  | blockCommutate (pwm : Half) (sector : Fin 6)
  /-- SINE_COMMUTATE (R232): signed magnitude and signed angle in degrees. -/
  | sineCommutate (m a : Half)
  /-- PULSE_CLAMP (R240): one signed phase value. -/
  | pulseClamp (x : Word32)
  /-- SetPower (R301): signed power. -/
  | setPower (v : Half)
  /-- SetSpeed (R302): signed speed in mm/s. -/
  | setSpeed (v : Half)
  /-- RX_PARSE (R366). -/
  | rxParse (b : Byte)
  /-- CRC16 (R350). -/
  | crc16 (bytes : List Byte)
  /-- FRAME_CHECK (R355): the payload length L, 0..9. -/
  | frameCheck (len : Fin 10)
  /-- DISPATCH (R400). -/
  | dispatch (frame : Frame)
  /-- REPLY (R430): seq, cid and rid of the request. -/
  | reply (seq : BitVec 4) (cid rid : Byte)
  /-- EXPIRE (R466). -/
  | expire
  -- frame commands: the operand is the payload pl (R132)
  /-- ENA (R401). -/
  | ena (payload : List Byte)
  /-- DIS (R402). -/
  | dis (payload : List Byte)
  /-- POW (R403). -/
  | pow (payload : List Byte)
  /-- DOG (R404). -/
  | dog (payload : List Byte)
  /-- MOD (R406). -/
  | mod (payload : List Byte)
  /-- RES (R405). -/
  | res (payload : List Byte)
  /-- SPE (R407). -/
  | spe (payload : List Byte)
  /-- XXX (R408). -/
  | xxx (payload : List Byte)
  /-- UNKNOWN_CMD (R409): a cid outside CMD_CODE, or a known cid whose payload does not meet its condition. -/
  | unknownCmd (cid : Byte) (payload : List Byte)
  -- frame responses: the seq and cid that the reply copies (R430)
  /-- RSP_NOR (R420). -/
  | rspNor (seq : BitVec 4) (cid : Byte)
  /-- RSP_SPEED (R422). -/
  | rspSpeed (seq : BitVec 4) (cid : Byte)
  /-- RSP_POSITION (R421). -/
  | rspPosition (seq : BitVec 4) (cid : Byte)
  /-- RSP_BATTERY (R423). -/
  | rspBattery (seq : BitVec 4) (cid : Byte)
  /-- RSP_CURRENT (R424). -/
  | rspCurrent (seq : BitVec 4) (cid : Byte)
  /-- RSP_PWM (R425). -/
  | rspPwm (seq : BitVec 4) (cid : Byte)
  /-- RSP_WATCHDOG (R426). -/
  | rspWatchdog (seq : BitVec 4) (cid : Byte)
  /-- RSP_PIDF (R427). -/
  | rspPidf (seq : BitVec 4) (cid : Byte)
  /-- RSP_TELEMETRY (R428). -/
  | rspTelemetry (seq : BitVec 4) (cid : Byte)
  /-- RSP_UNKNOWN (R429): a nonzero rid outside RSP_CODE. -/
  | rspUnknown (seq : BitVec 4) (cid rid : Byte)
deriving DecidableEq, Repr

end Sys2Proof
end

