-- ==== Sys2Proof/Machine/Frame.lean ====
section
/-! DEFINITION. CRC-16 (44_frame_parser.md R350) and the wire format of a frame (30_encoding.md R120 to R124): the
encoder that REPLY uses too (R430), and the frame that a validated byte sequence carries. -/

namespace Sys2Proof.Machine

/-- SOM, '/' (R120). -/
def som : Byte := 0x2F#8

/-- EOM, '\n' (R120). -/
def eom : Byte := 0x0A#8

/-- One of the eight shifts of R350. -/
def crcShift (c : Half) : Half := if c.msb then (c <<< 1) ^^^ 0x1021#16 else c <<< 1

/-- One byte of R350: XOR into the high byte, then eight shifts. -/
def crcByte (c : Half) (b : Byte) : Half :=
  let c := c ^^^ (b ++ 0#8)
  crcShift (crcShift (crcShift (crcShift (crcShift (crcShift (crcShift (crcShift c)))))))

/-- CRC16(bytes) from the initial value 0 (R350). -/
def crc16 (bytes : List Byte) : Half := bytes.foldl crcByte 0#16

/-- Bytes 0 .. 4+len of a frame: what the CRC covers (R120, R123). -/
def frameHead (f : Frame) : List Byte :=
  [som, BitVec.ofNat 8 f.payload.length, f.seq ++ f.dest, f.cid, f.rid] ++ f.payload

/-- The bytes of a frame with its correct CRC, crcLow first (R120, R123). -/
def encodeFrame (f : Frame) : List Byte := frameHead f ++ bytes16 (crc16 (frameHead f)) ++ [eom]

/-- The fields of a byte sequence laid out as R120, its payload being `pl`. -/
def frameFields (b2 b3 b4 : Byte) (pl : List Byte) : Frame :=
  { seq := b2.extractLsb' 4 4, dest := b2.extractLsb' 0 4, cid := b3, rid := b4, payload := pl }

/-- The frame that a byte sequence encodes: `none` unless SOM, len ≤ 9, total length, CRC and EOM are as R120 says. -/
def decodeFrame (bytes : List Byte) : Option Frame :=
  match bytes with
  | b0 :: b1 :: b2 :: b3 :: b4 :: rest =>
    let pl := rest.take b1.toNat
    if b0 = som ∧ b1.toNat ≤ maxPayload ∧
        rest.drop b1.toNat = bytes16 (crc16 ([b0, b1, b2, b3, b4] ++ pl)) ++ [eom] then
      some (frameFields b2 b3 b4 pl)
    else none
  | _ => none

end Sys2Proof.Machine
end

