-- ==== Sys2Proof/Machine/Ids.lean ====
section
/-! DEFINITION. How the cmdId byte selects a command and the rspId byte a response (30_encoding.md R130 to R132, R138,
R142). -/

namespace Sys2Proof.Machine

/-- The eight commands of R130. -/
inductive CmdName where
  | ena | dis | pow | dog | mod | res | spe | xxx
deriving DecidableEq, Repr

/-- NOR and the eight responses of R131. -/
inductive RspName where
  | nor | speed | position | battery | current | pwm | watchdog | pidf | telemetry
deriving DecidableEq, Repr

end Sys2Proof.Machine

namespace Sys2Proof

open Sys2Proof.Machine

/-- The command whose CMD_CODE entry is the byte (R130). -/
def CmdCode.lookup (c : CmdCode) (b : Byte) : Option CmdName :=
  if b = c.ena then some .ena
  else if b = c.dis then some .dis
  else if b = c.pow then some .pow
  else if b = c.dog then some .dog
  else if b = c.mod then some .mod
  else if b = c.res then some .res
  else if b = c.spe then some .spe
  else if b = c.xxx then some .xxx
  else none

/-- The response whose RSP_CODE entry is the byte (R131). -/
def RspCode.lookup (c : RspCode) (b : Byte) : Option RspName :=
  if b = c.nor then some .nor
  else if b = c.speed then some .speed
  else if b = c.position then some .position
  else if b = c.battery then some .battery
  else if b = c.current then some .current
  else if b = c.pwm then some .pwm
  else if b = c.watchdog then some .watchdog
  else if b = c.pidf then some .pidf
  else if b = c.telemetry then some .telemetry
  else none

/-- The condition a command puts on its payload (R132, R411): the needed length, and for MOD `pl[0]` in 0, 1 (R406). -/
def Machine.CmdName.accepts : CmdName → List Byte → Bool
  | .ena, _ => true
  | .dis, _ => true
  | .pow, pl => 2 ≤ pl.length
  | .dog, pl => 2 ≤ pl.length
  | .mod, pl => 3 ≤ pl.length && (pl.getD 0 0#8).toNat ≤ 1
  | .res, _ => true
  | .spe, pl => 2 ≤ pl.length
  | .xxx, _ => true

/-- The command that a cmdId byte and a payload select; `none` is an unknown or malformed command (R138, R409). -/
def CmdCode.select (c : CmdCode) (cid : Byte) (pl : List Byte) : Option CmdName :=
  match c.lookup cid with
  | some n => if n.accepts pl then some n else none
  | none => none

end Sys2Proof
end

