-- ==== Sys2Proof/WellFormed.lean ====
section
/-! DEFINITION. Which operations the opcode table admits: the ranges its rows give the operands. -/

namespace Sys2Proof

open Sys2Proof.Machine

/-- A payload has at most MAX_PAYLOAD bytes (R120, R121). -/
def payloadOk (pl : List Byte) : Bool := pl.length ≤ maxPayload

/-- A value lies in the PWM input range -1000..1000 (R34). -/
def pwmRange (v : Int) : Bool := -pwmInMax ≤ v && v ≤ pwmInMax

/-- A frame that fits the wire format (R120). -/
def Frame.wf (f : Frame) : Bool := payloadOk f.payload

/-- The operand ranges of the opcode table's rows. The ids of CMD_CODE and RSP_CODE are the configuration's, so
well-formedness of UNKNOWN_CMD, RSP_UNKNOWN and of a command's payload is relative to it (R130 to R132, R138). -/
def Instr.wf (cfg : Config) : Instr → Bool
  | .reset => true
  | .ctrlTick _ _ => true
  | .rxByte _ _ _ => true
  | .wdtTick => true
  | .hallStage _ => true
  | .hallDecode _ => true
  | .speedStage => true
  | .speedUpdate _ => true
  | .ctrlStage => true
  | .stepperStep => true
  | .pidfEval => true
  | .pwmFilter x => pwmRange x.toInt
  | .synthStage => true
  | .blockCommutate pwm _ => pwmRange pwm.toInt
  | .sineCommutate _ _ => true
  | .pulseClamp _ => true
  | .setPower _ => true
  | .setSpeed _ => true
  | .rxParse _ => true
  | .crc16 _ => true
  | .frameCheck _ => true
  | .dispatch f => f.wf
  | .reply _ _ _ => true
  | .expire => true
  | .ena pl => payloadOk pl
  | .dis pl => payloadOk pl
  | .pow pl => payloadOk pl && CmdName.pow.accepts pl
  | .dog pl => payloadOk pl && CmdName.dog.accepts pl
  | .mod pl => payloadOk pl && CmdName.mod.accepts pl
  | .res pl => payloadOk pl
  | .spe pl => payloadOk pl && CmdName.spe.accepts pl
  | .xxx pl => payloadOk pl
  | .unknownCmd cid pl => payloadOk pl && (cfg.cmdCode.select cid pl).isNone
  | .rspNor _ _ => true
  | .rspSpeed _ _ => true
  | .rspPosition _ _ => true
  | .rspBattery _ _ => true
  | .rspCurrent _ _ => true
  | .rspPwm _ _ => true
  | .rspWatchdog _ _ => true
  | .rspPidf _ _ => true
  | .rspTelemetry _ _ => true
  | .rspUnknown _ _ rid => (cfg.rspCode.lookup rid).isNone

end Sys2Proof
end

