-- ==== Sys2Proof/Decode.lean ====
section
/-! DEFINITION. The operation words that stand at the model's inputs, decoded and encoded.

What the spec encodes is taken from it: the port list (R30) for a transaction, the cmdId byte and payload (R130, R132)
for a command, the rspId byte (R131) with the seq and cmdId it copies (R430) for a response, the wire frame (R120) for
DISPATCH. The spec gives sub-operations no encoding ("internal") and no way to tell the four formats apart; the first
byte (the format) and the second byte of a sub-operation (its row number in spec/opcode_table.json, counted from 0) are
the model's. DESIGN CHOICE (log 4), safe. -/

namespace Sys2Proof

open Sys2Proof.Machine

/-- Why a word decodes to nothing; each is raised by `decode` only, and is safe: the model stops. -/
inductive DecodeError where
  /-- The word is empty. -/
  | empty
  /-- The first byte is no format. -/
  | unknownFormat
  /-- A port word without a strobe: a level change, no operation (R143 `SET`). -/
  | noStrobe
  /-- A port word with several strobes: they are several transactions (R470). -/
  | severalStrobes
  /-- No sub-operation has this row number. -/
  | unknownOperation
  /-- The operand bytes are too few, too many, or hold a value outside the operand's width. -/
  | badOperand
  /-- The frame operand of DISPATCH does not have the form of R120, or its CRC is wrong. -/
  | badFrame
deriving DecidableEq, Repr

/-- The format byte of a port word (a transaction). -/
def fmtPorts : Byte := 0#8
/-- The format byte of a sub-operation. -/
def fmtSub : Byte := 1#8
/-- The format byte of a frame command. -/
def fmtCommand : Byte := 2#8
/-- The format byte of a frame response. -/
def fmtResponse : Byte := 3#8

/-- No strobe and all levels 0. -/
def Ports.quiet : Ports :=
  { rst := false, ctrlTick := false, rxValid := false, wdtTick := false, hall := 0#3, rxByte := 0#8
    overcurrent := false, vbat := 0#16, ibus := 0#16 }

/-- The first byte of a port word, from bit 0: `rst`, `ctrl_tick`, `hall` (3 bits), `rx_valid`, `wdt_tick`,
`overcurrent`. -/
def Ports.control (p : Ports) : Byte :=
  BitVec.ofBool p.overcurrent ++ BitVec.ofBool p.wdtTick ++ BitVec.ofBool p.rxValid ++ p.hall
    ++ BitVec.ofBool p.ctrlTick ++ BitVec.ofBool p.rst

/-- A port sample as six bytes: the control byte, `rx_byte`, `vbat`, `ibus` (R30; little-endian as R83). -/
def Ports.toBytes (p : Ports) : List Byte := [p.control, p.rxByte] ++ bytes16 p.vbat ++ bytes16 p.ibus

/-- The transaction that a sample with exactly one strobe starts, with the levels the transaction reads (R30, R508). -/
def Ports.transaction (p : Ports) : Except DecodeError Instr :=
  match p.rst, p.ctrlTick, p.rxValid, p.wdtTick with
  | true, false, false, false => .ok .reset
  | false, true, false, false => .ok (.ctrlTick p.hall p.overcurrent)
  | false, false, true, false => .ok (.rxByte p.rxByte p.vbat p.ibus)
  | false, false, false, true => .ok .wdtTick
  | false, false, false, false => .error .noStrobe
  | _, _, _, _ => .error .severalStrobes

/-- The port sample that six bytes hold. -/
def Ports.ofBytes (c rx v0 v1 i0 i1 : Byte) : Ports :=
  { rst := c.getLsbD 0, ctrlTick := c.getLsbD 1, hall := c.extractLsb' 2 3, rxValid := c.getLsbD 5
    wdtTick := c.getLsbD 6, overcurrent := c.getLsbD 7, rxByte := rx, vbat := half v0 v1, ibus := half i0 i1 }

/-- A transaction word. -/
def decodePorts (bytes : List Byte) : Except DecodeError Instr :=
  match bytes with
  | [c, rx, v0, v1, i0, i1] => (Ports.ofBytes c rx v0 v1 i0 i1).transaction
  | _ => .error .badOperand

/-- A 3-bit operand in a byte. -/
def operand3 (b : Byte) (k : BitVec 3 → Instr) : Except DecodeError Instr :=
  if b.toNat < 8 then .ok (k (b.extractLsb' 0 3)) else .error .badOperand

/-- A 4-bit operand in a byte. -/
def operand4 (b : Byte) (k : BitVec 4 → Instr) : Except DecodeError Instr :=
  if b.toNat < 16 then .ok (k (b.extractLsb' 0 4)) else .error .badOperand

/-- A sector operand 0..5 in a byte (R102). -/
def operandSector (b : Byte) (k : Fin 6 → Instr) : Except DecodeError Instr :=
  if h : b.toNat < 6 then .ok (k ⟨b.toNat, h⟩) else .error .badOperand

/-- A payload-length operand 0..9 in a byte (R355). -/
def operandLength (b : Byte) (k : Fin 10 → Instr) : Except DecodeError Instr :=
  if h : b.toNat < 10 then .ok (k ⟨b.toNat, h⟩) else .error .badOperand

/-- A sub-operation word: the row number and the operand bytes. -/
def decodeSub (op : Nat) (bytes : List Byte) : Except DecodeError Instr :=
  match op with
  | 4 => match bytes with | [c] => operand3 c .hallStage | _ => .error .badOperand
  | 5 => match bytes with | [c] => operand3 c .hallDecode | _ => .error .badOperand
  | 6 => match bytes with | [] => .ok .speedStage | _ => .error .badOperand
  | 7 => match bytes with | [a, b, c, d] => .ok (.speedUpdate (word a b c d)) | _ => .error .badOperand
  | 8 => match bytes with | [] => .ok .ctrlStage | _ => .error .badOperand
  | 9 => match bytes with | [] => .ok .stepperStep | _ => .error .badOperand
  | 10 => match bytes with | [] => .ok .pidfEval | _ => .error .badOperand
  | 11 => match bytes with | [a, b] => .ok (.pwmFilter (half a b)) | _ => .error .badOperand
  | 12 => match bytes with | [] => .ok .synthStage | _ => .error .badOperand
  | 13 => match bytes with | [a, b, s] => operandSector s (.blockCommutate (half a b)) | _ => .error .badOperand
  | 14 => match bytes with | [a, b, c, d] => .ok (.sineCommutate (half a b) (half c d)) | _ => .error .badOperand
  | 15 => match bytes with | [a, b, c, d] => .ok (.pulseClamp (word a b c d)) | _ => .error .badOperand
  | 16 => match bytes with | [a, b] => .ok (.setPower (half a b)) | _ => .error .badOperand
  | 17 => match bytes with | [a, b] => .ok (.setSpeed (half a b)) | _ => .error .badOperand
  | 18 => match bytes with | [b] => .ok (.rxParse b) | _ => .error .badOperand
  | 19 => .ok (.crc16 bytes)
  | 20 => match bytes with | [l] => operandLength l .frameCheck | _ => .error .badOperand
  | 21 => match decodeFrame bytes with | some f => .ok (.dispatch f) | none => .error .badFrame
  | 22 => match bytes with | [s, c, r] => operand4 s (fun q => .reply q c r) | _ => .error .badOperand
  | 23 => match bytes with | [] => .ok .expire | _ => .error .badOperand
  | _ => .error .unknownOperation

/-- The command that a cmdId byte selects, with its payload (R130, R132, R138, R142). -/
def decodeCommand (codes : CmdCode) (cid : Byte) (pl : List Byte) : Instr :=
  match codes.select cid pl with
  | some .ena => .ena pl
  | some .dis => .dis pl
  | some .pow => .pow pl
  | some .dog => .dog pl
  | some .mod => .mod pl
  | some .res => .res pl
  | some .spe => .spe pl
  | some .xxx => .xxx pl
  | none => .unknownCmd cid pl

/-- The response that a rspId byte selects, with the seq and cmdId to copy (R131, R142, R430). -/
def decodeResponse (codes : RspCode) (rid : Byte) (seq : BitVec 4) (cid : Byte) : Instr :=
  match codes.lookup rid with
  | some .nor => .rspNor seq cid
  | some .speed => .rspSpeed seq cid
  | some .position => .rspPosition seq cid
  | some .battery => .rspBattery seq cid
  | some .current => .rspCurrent seq cid
  | some .pwm => .rspPwm seq cid
  | some .watchdog => .rspWatchdog seq cid
  | some .pidf => .rspPidf seq cid
  | some .telemetry => .rspTelemetry seq cid
  | none => .rspUnknown seq cid rid

/-- The operation that a word stands for. Total: what stands for none is an error by name. -/
def decode (cfg : Config) (bytes : List Byte) : Except DecodeError Instr :=
  match bytes with
  | [] => .error .empty
  | fmt :: rest =>
    if fmt = fmtPorts then decodePorts rest
    else if fmt = fmtSub then
      match rest with
      | op :: operands => decodeSub op.toNat operands
      | [] => .error .badOperand
    else if fmt = fmtCommand then
      match rest with
      | cid :: pl => if payloadOk pl then .ok (decodeCommand cfg.cmdCode cid pl) else .error .badOperand
      | [] => .error .badOperand
    else if fmt = fmtResponse then
      match rest with
      | [rid, s, cid] => operand4 s (fun q => decodeResponse cfg.rspCode rid q cid)
      | _ => .error .badOperand
    else .error .unknownFormat

/-! ### The encoder -/

/-- A transaction word. -/
def encodePorts (p : Ports) : List Byte := fmtPorts :: p.toBytes

/-- A sub-operation word: row number and operands. -/
def encodeSub (op : Byte) (operands : List Byte) : List Byte := fmtSub :: op :: operands

/-- A command word: cmdId and payload. -/
def encodeCommand (cid : Byte) (pl : List Byte) : List Byte := fmtCommand :: cid :: pl

/-- A response word: rspId, then seq and the cmdId to copy. -/
def encodeResponse (rid : Byte) (seq : BitVec 4) (cid : Byte) : List Byte := [fmtResponse, rid, seq.setWidth 8, cid]

/-- The word of an operation. -/
def encode (cfg : Config) : Instr → List Byte
  | .reset => encodePorts { Ports.quiet with rst := true }
  | .ctrlTick h oc => encodePorts { Ports.quiet with ctrlTick := true, hall := h, overcurrent := oc }
  | .rxByte b v i => encodePorts { Ports.quiet with rxValid := true, rxByte := b, vbat := v, ibus := i }
  | .wdtTick => encodePorts { Ports.quiet with wdtTick := true }
  | .hallStage c => encodeSub 4#8 [c.setWidth 8]
  | .hallDecode c => encodeSub 5#8 [c.setWidth 8]
  | .speedStage => encodeSub 6#8 []
  | .speedUpdate raw => encodeSub 7#8 (bytes32 raw)
  | .ctrlStage => encodeSub 8#8 []
  | .stepperStep => encodeSub 9#8 []
  | .pidfEval => encodeSub 10#8 []
  | .pwmFilter x => encodeSub 11#8 (bytes16 x)
  | .synthStage => encodeSub 12#8 []
  | .blockCommutate pwm s => encodeSub 13#8 (bytes16 pwm ++ [BitVec.ofNat 8 s.val])
  | .sineCommutate m a => encodeSub 14#8 (bytes16 m ++ bytes16 a)
  | .pulseClamp x => encodeSub 15#8 (bytes32 x)
  | .setPower v => encodeSub 16#8 (bytes16 v)
  | .setSpeed v => encodeSub 17#8 (bytes16 v)
  | .rxParse b => encodeSub 18#8 [b]
  | .crc16 bytes => encodeSub 19#8 bytes
  | .frameCheck len => encodeSub 20#8 [BitVec.ofNat 8 len.val]
  | .dispatch f => encodeSub 21#8 (encodeFrame f)
  | .reply seq cid rid => encodeSub 22#8 [seq.setWidth 8, cid, rid]
  | .expire => encodeSub 23#8 []
  | .ena pl => encodeCommand cfg.cmdCode.ena pl
  | .dis pl => encodeCommand cfg.cmdCode.dis pl
  | .pow pl => encodeCommand cfg.cmdCode.pow pl
  | .dog pl => encodeCommand cfg.cmdCode.dog pl
  | .mod pl => encodeCommand cfg.cmdCode.mod pl
  | .res pl => encodeCommand cfg.cmdCode.res pl
  | .spe pl => encodeCommand cfg.cmdCode.spe pl
  | .xxx pl => encodeCommand cfg.cmdCode.xxx pl
  | .unknownCmd cid pl => encodeCommand cid pl
  | .rspNor seq cid => encodeResponse cfg.rspCode.nor seq cid
  | .rspSpeed seq cid => encodeResponse cfg.rspCode.speed seq cid
  | .rspPosition seq cid => encodeResponse cfg.rspCode.position seq cid
  | .rspBattery seq cid => encodeResponse cfg.rspCode.battery seq cid
  | .rspCurrent seq cid => encodeResponse cfg.rspCode.current seq cid
  | .rspPwm seq cid => encodeResponse cfg.rspCode.pwm seq cid
  | .rspWatchdog seq cid => encodeResponse cfg.rspCode.watchdog seq cid
  | .rspPidf seq cid => encodeResponse cfg.rspCode.pidf seq cid
  | .rspTelemetry seq cid => encodeResponse cfg.rspCode.telemetry seq cid
  | .rspUnknown seq cid rid => encodeResponse rid seq cid

/-! ### The words of spec/opcode_table.json

A row of the table that has bits gives one byte: a cmdId (format frame-command) or a rspId (format frame-response). The
two id spaces overlap (R130, R131) and the byte does not say which it is. The model reads it as a cmdId where CMD_CODE
lists it, else as a rspId where RSP_CODE lists it, else as an unknown cmdId; the operand bytes are zeros (nine payload
bytes, or seq 0 and cmdId 0). DESIGN CHOICE (log 5). -/

/-- The operation word that a table word stands for, under a configuration's id profiles. -/
def tableWordBytes (cfg : Config) (w : Nat) : List Byte :=
  let b := BitVec.ofNat 8 w
  if (cfg.cmdCode.lookup b).isSome || (cfg.rspCode.lookup b).isNone then
    encodeCommand b (List.replicate maxPayload 0#8)
  else encodeResponse b 0#4 0#8

/-- The instruction that the decoder reads from a table word, under the default profiles; only 8-bit words have rows. -/
def decodeTableWord (nbits w : Nat) : Option Instr :=
  if nbits = 8 ∧ w < 256 then
    match decode Config.testProfile (tableWordBytes Config.testProfile w) with
    | .ok i => some i
    | .error _ => none
  else none

end Sys2Proof
end

