-- ==== Sys2Proof/Machine/State.lean ====
section
/-! DEFINITION. The state of the block (10_state.md R30 to R44), grouped by sub-block as the spec groups it, its reset
value (70_reset_and_hazards.md R550), and the reasons a step can stop. Registers are exact integers or natural numbers
in the ranges of R32 to R38 (R12, R13); that they stay in range is an invariant (Safety.lean), not a truncation. The pulse
ports and the uint16 registers that only move bytes are 16-bit patterns (R36, R37, R87). -/

namespace Sys2Proof.Machine

/-- The control mode (R140, R300). The reserved encoding 3 is no value of the type: no rule writes it. -/
inductive Mode where
  | openLoop | stepper | running
deriving DecidableEq, Repr

/-- The 2-bit encoding of a mode (R140). -/
def Mode.code : Mode → BitVec 2
  | .openLoop => 0#2
  | .stepper => 1#2
  | .running => 2#2

/-- The measured direction of rotation: -1, 0, +1 (R32). -/
inductive Direction where
  | reverse | still | forward
deriving DecidableEq, Repr

/-- The integer that a direction stands for (R32). -/
def Direction.toInt : Direction → Int
  | .reverse => -1
  | .still => 0
  | .forward => 1

/-- hall_sector_decoder registers (R32). -/
structure HallRegs where
  /-- The last valid sector; not meaningful while `sectorValid` is false. -/
  sector : Fin 6
  sectorValid : Bool
  hallDir : Direction
  /-- Accumulated position, int32. -/
  odo : Int
  transition : Bool
  validTr : Bool
  hallInvalid : Bool
deriving DecidableEq, Repr

/-- speed_estimator_lowpass registers (R33). -/
structure SpeedRegs where
  /-- uint16, 0..MAX_PHASE_PERIOD. -/
  phaseCnt : Nat
  /-- uint16, 1..MAX_PHASE_PERIOD. -/
  phasePeriod : Nat
  /-- int32. -/
  speedReg : Int
  /-- int32, -SPEED_TICKS_FACTOR..SPEED_TICKS_FACTOR. -/
  speedFilt : Int
deriving DecidableEq, Repr

/-- pidf_speed_controller registers (R34). -/
structure CtrlRegs where
  mode : Mode
  restartPending : Bool
  /-- int16, -1000..1000. -/
  pwmInput : Int
  /-- int16, -5000..5000 mm/s. -/
  setpoint : Int
  /-- int16, -5000..5000 mm/s. -/
  lastSetpoint : Int
  /-- int32, -ILIMIT..ILIMIT. -/
  integral : Int
  /-- int32. -/
  pTerm : Int
  /-- int32. -/
  iTerm : Int
  /-- int32. -/
  fTerm : Int
  /-- int16, -1000..1000. -/
  pidOut : Int
  /-- int32. -/
  pwmReg : Int
  /-- int16, -1000..1000. -/
  pwmOut : Int
  /-- 0..359 degrees. -/
  angleY : Int
  /-- uint16, saturating at 65535. -/
  stepCnt : Nat
deriving DecidableEq, Repr

/-- Phase outputs of the last CTRL_TICK (R35); `pulse*` are the output ports of R30. -/
structure SynthRegs where
  phaseY : Int
  phaseB : Int
  phaseG : Int
  /-- uint16, PWM_MARGIN..PWM_RES-PWM_MARGIN. -/
  pulseY : Half
  /-- uint16, PWM_MARGIN..PWM_RES-PWM_MARGIN. -/
  pulseB : Half
  /-- uint16, PWM_MARGIN..PWM_RES-PWM_MARGIN. -/
  pulseG : Half
deriving DecidableEq, Repr

/-- Configuration registers, written by commands (R36). -/
structure ConfRegs where
  stepThresh : Half
  commMode : CommMode
  wdtInterval : Half
deriving DecidableEq, Repr

/-- Safety and status flags (R37). -/
structure SafetyRegs where
  enable : Bool
  estop : Bool
  wdtExpired : Bool
  wdtCnt : Half
deriving DecidableEq, Repr

/-- serial_frame_parser registers (R38). `buf` is the 17-byte frame buffer as canonical cells (R80; log 13). -/
structure Parser where
  recording : Bool
  /-- 0..17. -/
  idx : Nat
  buf : List Host.Cell
deriving DecidableEq, Repr

/-- What a pure sub-operation returned when it was issued by itself. The model's own; the spec's rules call these
operations inside a stage and write the value where the stage says. DESIGN CHOICE (log 7). -/
inductive OpResult where
  | nothing
  /-- HALL_DECODE: 0..5, or 7 for NOFUNC (R200). -/
  | sector (v : Nat)
  /-- BLOCK_COMMUTATE and SINE_COMMUTATE (R230, R232). -/
  | phases (y b g : Int)
  /-- PULSE_CLAMP (R240). -/
  | pulse (p : Int)
  /-- CRC16 (R350). -/
  | crc (c : Half)
  /-- FRAME_CHECK (R355). -/
  | valid (ok : Bool)
deriving DecidableEq, Repr

/-- The state of the block. `cfg` holds the build parameters (R8), which no transaction writes. `booted`, `inputs`,
`issue`, `orderCount` and `result` are the model's own fields (log 1, 2, 3, 7, 8). -/
structure State where
  cfg : Config
  booted : Bool
  ports : Ports
  hall : HallRegs
  speed : SpeedRegs
  ctrl : CtrlRegs
  synth : SynthRegs
  conf : ConfRegs
  safety : SafetyRegs
  parser : Parser
  /-- The serial output stream (R44). -/
  tx : List Byte
  /-- Later samples of the input ports, the environment's, earliest first. -/
  inputs : List Ports
  /-- An operation word to be run by itself; empty on the real block, whose sub-operations run only inside a
  transaction (R142). -/
  issue : List Byte
  /-- How many free choices among coincident strobes have been made (R470). -/
  orderCount : Nat
  result : OpResult
deriving DecidableEq, Repr

/-- Why the machine stops with a fault: never. "A model therefore has no fault transition for any admitted configuration
and state" (R500), so the type has no constructor. -/
inductive Fault where
deriving DecidableEq, Repr

/-- Why the model gives a step no meaning. Each is safe: the model stops. -/
inductive Refusal where
  /-- An operation that has no meaning yet; only `exec`'s arms raise it, and no arm does. -/
  | notModelled (mnemonic : String)
  /-- The configuration is one that R517 says the model refuses "by name"; every operation raises it. -/
  | configuration (flaw : ConfigFlaw)
  /-- A transaction before the first RESET (R46, R517); every operation but RESET raises it. -/
  | beforeReset
  /-- The word at the model's input stands for no operation; raised by `step`. -/
  | undecodable (reason : DecodeError)
deriving DecidableEq, Repr

/-! ### Reset values (R550) -/

/-- R32, R550. -/
def HallRegs.reset : HallRegs :=
  { sector := 0, sectorValid := false, hallDir := .still, odo := 0, transition := false, validTr := false
    hallInvalid := false }

/-- R33, R550: both counters at the ceiling, so the estimator starts stalled (R551). -/
def SpeedRegs.reset (cfg : Config) : SpeedRegs :=
  { phaseCnt := cfg.maxPhasePeriod, phasePeriod := cfg.maxPhasePeriod, speedReg := 0, speedFilt := 0 }

/-- R34, R550. -/
def CtrlRegs.reset : CtrlRegs :=
  { mode := .openLoop, restartPending := false, pwmInput := 0, setpoint := 0, lastSetpoint := 0, integral := 0
    pTerm := 0, iTerm := 0, fTerm := 0, pidOut := 0, pwmReg := 0, pwmOut := 0, angleY := 0, stepCnt := 0 }

/-- R35, R550: the pulses at half scale, PWM_RES >> 1. -/
def SynthRegs.reset (cfg : Config) : SynthRegs :=
  let half := pulsePort ((cfg.pwmRes : Int) / 2)
  { phaseY := 0, phaseB := 0, phaseG := 0, pulseY := half, pulseB := half, pulseG := half }

/-- R36, R550: STEP_THRESH_RESET, COMM_MODE_RESET and WDT_RESET (R8). -/
def ConfRegs.reset (cfg : Config) : ConfRegs :=
  { stepThresh := cfg.stepThreshReset, commMode := cfg.commModeReset, wdtInterval := cfg.wdtReset }

/-- R37, R550. -/
def SafetyRegs.reset : SafetyRegs := { enable := false, estop := false, wdtExpired := false, wdtCnt := 0#16 }

/-- R38, R550: IDLE, every buffer byte 0x00. -/
def Parser.reset : Parser := { recording := false, idx := 0, buf := [] }

/-- The state that RESET leaves under a configuration, given what is not the block's: the port levels, the
environment's later samples, and the model's own fields. -/
def State.resetWith (cfg : Config) (ports : Ports) (inputs : List Ports) (issue : List Byte) (orderCount : Nat) :
    State :=
  { cfg := cfg, booted := true, ports := ports, hall := .reset, speed := .reset cfg, ctrl := .reset
    synth := .reset cfg, conf := .reset cfg, safety := .reset, parser := .reset, tx := [], inputs := inputs
    issue := issue, orderCount := orderCount, result := .nothing }

/-- The machine right after reset (R550), under the test profile TP, with quiet ports and no stimulus (log 1, 6, 15). -/
def State.reset : State := State.resetWith Config.testProfile Ports.quiet [] [] 0

end Sys2Proof.Machine
end

