-- ==== Sys2Proof/Machine/Operands.lean ====
section
/-! DEFINITION. The operand forms: payload fields of a command (30_encoding.md R132) and the fields of a frame held in
the frame buffer (R120, 45_command_dispatcher.md). -/

namespace Sys2Proof.Machine

/-- `pl[k]`; meaningful for k below the payload length. -/
def plByte (pl : List Byte) (k : Nat) : Byte := pl.getD k 0#8

/-- `rd_s16(pl[0], pl[1])`: the operand of POW and SPE (R132). -/
def plS16 (pl : List Byte) : Int := rdS16 (plByte pl 0) (plByte pl 1)

/-- `rd_u16(pl[k], pl[k+1])`: the operand of DOG (k = 0) and MOD's threshold (k = 1) (R132). -/
def plU16 (pl : List Byte) (k : Nat) : Half := rdU16 (plByte pl k) (plByte pl (k + 1))

/-- MOD's `pl[0]` as a waveform: 0 block, 1 sine (R132, R141). -/
def plCommMode (pl : List Byte) : CommMode := if plByte pl 0 = 0#8 then .block else .sine

end Sys2Proof.Machine
end

