-- ==== Sys2Proof/Machine/Ops.lean ====
section
/-! DEFINITION. The named operations that the meanings share: the frame buffer's bytes (20_memory.md R80), the guard of
60_exceptions.md R517, and `emit` (R14, R44).

There is no operation that takes an exception or returns from one: the block has no trap entry and no trap return (R500,
R510, R511). -/

namespace Sys2Proof.Machine

/-- The outcome type of a step. -/
abbrev Out := Host.Outcome State Fault Refusal

/-! ### The frame buffer -/

namespace Memory

/-- The byte listed at an offset; an offset that is not listed holds 0x00, the reset content (R38). -/
def lookup : List Host.Cell → Nat → Byte
  | [], _ => 0#8
  | (k, v) :: rest, a => if k = a then v else lookup rest a

/-- List a byte at an offset, keeping the canonical form: offsets rising, no byte 0x00 listed. -/
def insert : List Host.Cell → Nat → Byte → List Host.Cell
  | [], a, b => if b = 0#8 then [] else [(a, b)]
  | (k, v) :: rest, a, b =>
    if a < k then (if b = 0#8 then (k, v) :: rest else (a, b) :: (k, v) :: rest)
    else if a = k then (if b = 0#8 then rest else (a, b) :: rest)
    else (k, v) :: insert rest a b

/-- Read the byte at an offset of the 17-byte buffer; beyond it, where no byte is (R80), a free value (log 13). -/
def read (m : List Host.Cell) (a : Nat) : Byte := if a < bufSize then lookup m a else Config.beyondBuffer a

/-- Store a byte at an offset of the 17-byte buffer; beyond it no byte is stored (R80, log 13). -/
def write (m : List Host.Cell) (a : Nat) (b : Byte) : List Host.Cell := if a < bufSize then insert m a b else m

/-- The canonical form: every offset is at least `lo` and below the buffer's size, offsets rise, no byte is 0x00. -/
def wfFrom : Nat → List Host.Cell → Bool
  | _, [] => true
  | lo, (k, v) :: rest => lo ≤ k && k < bufSize && v != 0#8 && wfFrom (k + 1) rest

/-- The buffer is in canonical form within its 17 bytes (R80). -/
def wf (m : List Host.Cell) : Bool := wfFrom 0 m

/-- The n bytes from offset `lo` on. -/
def slice (m : List Host.Cell) (lo n : Nat) : List Byte := (List.range n).map (fun k => read m (lo + k))

/-- The left shift of R365: buf[k] <- buf[k+j] for k in 0 .. n-1, in rising order. -/
def shiftLeft (m : List Host.Cell) (j n : Nat) : List Host.Cell :=
  (List.range n).foldl (fun acc k => write acc k (read acc (k + j))) m

end Memory

/-! ### The guard of R517 -/

/-- Run `k` unless R517 refuses: a configuration that it lists, or an operation before the first RESET (R46). -/
def guarded (s : State) (k : State → Out) : Out :=
  match s.cfg.check with
  | some flaw => .refused (.configuration flaw)
  | none => if s.booted then k s else .refused .beforeReset

/-- The states in which every operation runs: R517 refuses neither the configuration nor the operation. -/
abbrev State.Ready (s : State) : Prop := s.cfg.check = none ∧ s.booted = true

/-- The ready states whose configuration the spec describes: every parameter in its domain (R8). -/
abbrev State.Admitted (s : State) : Prop := s.cfg.Legal ∧ s.booted = true

/-- Run an update of the state under the guard. -/
def runUpdate (f : State → State) (s : State) : Out := guarded s (fun s => .next (f s))

/-! ### Serial output -/

/-- `emit(bytes)`: append to `tx` (R14, R44). -/
def emit (bytes : List Byte) (s : State) : State := { s with tx := s.tx ++ bytes }

end Sys2Proof.Machine
end

