-- ==== Sys2Proof/Machine/Hall.lean ====
section
/-! DEFINITION. hall_sector_decoder (40_hall_decoder.md): HALL_DECODE and HALL_STAGE. -/

namespace Sys2Proof.Machine

/-- HALL_DECODE: the HALL_TABLE entry of a hall code, 0..5 or NOFUNC (R200). -/
def hallDecode (cfg : Config) (c : BitVec 3) : Nat := cfg.tables.hall.getD c.toNat noFunc

/-- The sector that a HALL_TABLE value stands for; none for NOFUNC (R101). -/
def sectorOf (v : Nat) : Option (Fin 6) := if h : v < 6 then some ⟨v, h⟩ else none

/-- HALL_STAGE on the decoder's registers (R202 to R208). `s - h.sector` is the difference mod 6 (R204). -/
def hallStageRegs (cfg : Config) (c : BitVec 3) (h : HallRegs) : HallRegs :=
  match sectorOf (hallDecode cfg c) with
  | none => { h with transition := false, validTr := false, hallInvalid := true }
  | some s =>
    if h.sectorValid = false then
      { h with sector := s, sectorValid := true, transition := false, validTr := false, hallInvalid := false }
    else
      let d := s - h.sector
      { sector := s
        sectorValid := true
        hallDir := if d = 1 then .forward else if d = 5 then .reverse else h.hallDir
        odo := if d = 1 then wrap32 (h.odo + 1) else if d = 5 then wrap32 (h.odo - 1) else h.odo
        transition := d != 0
        validTr := d == 1 || d == 5
        hallInvalid := false }

/-- HALL_STAGE (R208). -/
def hallStage (c : BitVec 3) (s : State) : State := { s with hall := hallStageRegs s.cfg c s.hall }

/-- HALL_STAGE as an operation (R208). -/
def execHallStage (c : BitVec 3) (s : State) : Out := runUpdate (hallStage c) s

/-- HALL_DECODE as an operation (R200): pure; its value is the result. -/
def execHallDecode (c : BitVec 3) (s : State) : Out :=
  runUpdate (fun s => { s with result := .sector (hallDecode s.cfg c) }) s

end Sys2Proof.Machine
end

