-- ==== Sys2Proof/Machine/Commutation.lean ====
section
/-! DEFINITION. Commutation (41_commutation.md): the six-step table, the sine table and the phase synthesizer. -/

namespace Sys2Proof.Machine

/-- Three signed phase values (Y, B, G). -/
structure Phases where
  y : Int
  b : Int
  g : Int
deriving DecidableEq, Repr

/-- The BLOCK_TABLE row of a sector (R105); a row that the table lacks is a free value (log 11). -/
def blockRow (cfg : Config) (sector : Fin 6) : Signs :=
  cfg.tables.block.getD sector.val
    ⟨Config.missingSign sector.val 0, Config.missingSign sector.val 1, Config.missingSign sector.val 2⟩

/-- BLOCK_COMMUTATE (R230). -/
def blockCommutate (cfg : Config) (pwm : Int) (sector : Fin 6) : Phases :=
  let k := blockRow cfg sector
  { y := k.y * pwm, b := k.b * pwm, g := k.g * pwm }

/-- SINE_LUT at an angle, reduced mod 360 (R107, R235); an entry that the table lacks is a free value (log 11). -/
def sineLut (cfg : Config) (a : Int) : Int :=
  cfg.sineLut.getD (a % 360).toNat (Config.missingSine (a % 360).toNat)

/-- SECTOR_ANGLE(s) = (60·s + PHASE_ADV) mod 360 (R108). -/
def sectorAngle (cfg : Config) (sector : Fin 6) : Int := (60 * (sector.val : Int) + cfg.phaseAdv) % 360

/-- One phase of SINE_COMMUTATE: the attenuated table value (R232, R234). -/
def sinePhase (cfg : Config) (m a : Int) : Int := tdiv (sineLut cfg a * asr m sineShift) cfg.sineNorm

/-- SINE_COMMUTATE: Y at a, B at a + 120, G at a + 240 (R232, R233). -/
def sineCommutate (cfg : Config) (m a : Int) : Phases :=
  let aY := a % 360
  { y := sinePhase cfg m aY, b := sinePhase cfg m (aY + 120), g := sinePhase cfg m (aY + 240) }

/-- `halfScale` = PWM_RES >> 1 (R241). -/
def halfScale (cfg : Config) : Int := asr cfg.pwmRes 1

/-- PULSE_CLAMP (R240). -/
def pulseClamp (cfg : Config) (x : Int) : Int := clamp (x + halfScale cfg) pwmMargin (cfg.pwmRes - pwmMargin)

/-- The waveform selection of SYNTH_STAGE (R237, R239, R242). -/
def synthPhases (s : State) : Phases :=
  if s.ctrl.mode = .stepper then sineCommutate s.cfg s.ctrl.pwmOut s.ctrl.angleY
  else if s.hall.sectorValid = false then { y := 0, b := 0, g := 0 }
  else if s.conf.commMode = .block then blockCommutate s.cfg s.ctrl.pwmOut s.hall.sector
  else sineCommutate s.cfg s.ctrl.pwmOut (sectorAngle s.cfg s.hall.sector)

/-- The registers that SYNTH_STAGE writes for three phase values (R242). -/
def synthRegs (cfg : Config) (p : Phases) : SynthRegs :=
  { phaseY := p.y, phaseB := p.b, phaseG := p.g
    pulseY := pulsePort (pulseClamp cfg p.y), pulseB := pulsePort (pulseClamp cfg p.b)
    pulseG := pulsePort (pulseClamp cfg p.g) }

/-- SYNTH_STAGE (R242). -/
def synthStage (s : State) : State := { s with synth := synthRegs s.cfg (synthPhases s) }

/-- The result value of three phases. -/
def Phases.toResult (p : Phases) : OpResult := .phases p.y p.b p.g

/-- SYNTH_STAGE as an operation (R242). -/
def execSynthStage (s : State) : Out := runUpdate synthStage s

/-- BLOCK_COMMUTATE as an operation (R230): pure. -/
def execBlockCommutate (pwm : Half) (sector : Fin 6) (s : State) : Out :=
  runUpdate (fun s => { s with result := (blockCommutate s.cfg pwm.toInt sector).toResult }) s

/-- SINE_COMMUTATE as an operation (R232): pure. -/
def execSineCommutate (m a : Half) (s : State) : Out :=
  runUpdate (fun s => { s with result := (sineCommutate s.cfg m.toInt a.toInt).toResult }) s

/-- PULSE_CLAMP as an operation (R240): pure. -/
def execPulseClamp (x : Word32) (s : State) : Out :=
  runUpdate (fun s => { s with result := .pulse (pulseClamp s.cfg x.toInt) }) s

end Sys2Proof.Machine
end

