-- ==== Sys2Proof/Machine/Control.lean ====
section
/-! DEFINITION. pidf_speed_controller (43_speed_controller.md): SetPower, SetSpeed, phase restart, STEPPER_STEP,
PIDF_EVAL, PWM_FILTER and CTRL_STAGE. -/

namespace Sys2Proof.Machine

/-! ### The setters -/

/-- SetPower on the controller's registers (R301); `angleY`, `pwmReg` and `pwmOut` are not written. -/
def setPowerRegs (v : Int) (r : CtrlRegs) : CtrlRegs :=
  { r with
    mode := .openLoop, restartPending := false, setpoint := 0, lastSetpoint := 0, integral := 0, pTerm := 0
    iTerm := 0, fTerm := 0, pidOut := 0, stepCnt := 0, pwmInput := clamp v (-pwmInMax) pwmInMax }

/-- SetPower (R301). -/
def setPower (v : Int) (s : State) : State := { s with ctrl := setPowerRegs v s.ctrl }

/-- The entry into STEPPER: counter cleared, the angle at the sensed sector (R306, R307). -/
def enterStepper (cfg : Config) (sector : Fin 6) (r : CtrlRegs) : CtrlRegs :=
  { r with mode := .stepper, stepCnt := 0, angleY := sectorAngle cfg sector }

/-- SetSpeed on the controller's registers (R302 to R308). -/
def setSpeedRegs (cfg : Config) (hall : HallRegs) (stepThresh : Half) (v : Int) (r : CtrlRegs) : CtrlRegs :=
  let v := clamp v (-speedSpMax) speedSpMax
  if v = 0 then
    { r with
      setpoint := 0, mode := .openLoop, pwmInput := 0, integral := 0, restartPending := false, stepCnt := 0 }
  else
    let r := { r with setpoint := v }
    if stepThresh.toNat < v.natAbs then { r with mode := .running, restartPending := false }
    else
      match r.mode with
      | .running => { r with restartPending := true }
      | .openLoop =>
        if hall.sectorValid then enterStepper cfg hall.sector r else { r with mode := .stepper, stepCnt := 0 }
      | .stepper => r

/-- SetSpeed (R302). -/
def setSpeed (v : Int) (s : State) : State :=
  { s with ctrl := setSpeedRegs s.cfg s.hall s.conf.stepThresh v s.ctrl }

/-! ### The stages of one tick -/

/-- Phase restart (R307). -/
def phaseRestart (cfg : Config) (hall : HallRegs) (r : CtrlRegs) : CtrlRegs :=
  if r.restartPending = true ∧ hall.transition = true ∧ r.mode = .running then
    { enterStepper cfg hall.sector r with restartPending := false }
  else r

/-- The stepper period in ticks per degree (R311). -/
def stepperPeriod (cfg : Config) (setpoint : Int) : Int := max 1 (tdiv cfg.stepperK setpoint.natAbs)

/-- STEPPER_STEP on the controller's registers (R310). -/
def stepperStepRegs (cfg : Config) (r : CtrlRegs) : CtrlRegs :=
  let cnt := min (r.stepCnt + 1) 65535
  if stepperPeriod cfg r.setpoint ≤ (cnt : Int) then
    { r with stepCnt := 0, angleY := (r.angleY + sgn r.setpoint) % 360 }
  else { r with stepCnt := cnt }

/-- PIDF_EVAL on the controller's registers (R320 to R326). -/
def pidfRegs (cfg : Config) (speedFilt : Int) (r : CtrlRegs) : CtrlRegs :=
  let err := r.setpoint - speedFilt
  let ff := asr (r.setpoint * cfg.kf + sgn r.setpoint * cfg.kfo) gainShift
  let p := asr (err * cfg.kp) gainShift
  let integral :=
    if (r.setpoint.natAbs : Int) < cfg.minSpeed ∨ r.setpoint * r.lastSetpoint < 0 then 0
    else clamp (r.integral + err * cfg.ki) (-cfg.iLimit) cfg.iLimit
  let i := asr integral gainShift
  { r with
    integral := integral, lastSetpoint := r.setpoint, pTerm := p, iTerm := i, fTerm := ff
    pidOut := clamp (ff + p + i) (-pwmInMax) pwmInMax }

/-- PWM_FILTER on the controller's registers (R327). -/
def pwmFilterRegs (cfg : Config) (x : Int) (r : CtrlRegs) : CtrlRegs :=
  let reg := r.pwmReg + x - asr r.pwmReg cfg.pwmShift
  { r with pwmReg := reg, pwmOut := asr reg cfg.pwmShift }

/-- The PIDF or the open-loop input, then the PWM filter (R300, R322, R330). -/
def driveRegs (cfg : Config) (speedFilt : Int) (r : CtrlRegs) : CtrlRegs :=
  if r.mode = .openLoop then pwmFilterRegs cfg r.pwmInput r
  else
    let r := pidfRegs cfg speedFilt r
    pwmFilterRegs cfg r.pidOut r

/-- CTRL_STAGE on the controller's registers: restart check, stepper step, PIDF, PWM filter (R330). -/
def ctrlStageRegs (cfg : Config) (hall : HallRegs) (speedFilt : Int) (r : CtrlRegs) : CtrlRegs :=
  let r := phaseRestart cfg hall r
  let r := if r.mode = .stepper then stepperStepRegs cfg r else r
  driveRegs cfg speedFilt r

/-- CTRL_STAGE (R330). -/
def ctrlStage (s : State) : State := { s with ctrl := ctrlStageRegs s.cfg s.hall s.speed.speedFilt s.ctrl }

/-! ### As operations -/

/-- SetPower as an operation (R301). -/
def execSetPower (v : Half) (s : State) : Out := runUpdate (setPower v.toInt) s

/-- SetSpeed as an operation (R302). -/
def execSetSpeed (v : Half) (s : State) : Out := runUpdate (setSpeed v.toInt) s

/-- STEPPER_STEP as an operation (R310). -/
def execStepperStep (s : State) : Out := runUpdate (fun s => { s with ctrl := stepperStepRegs s.cfg s.ctrl }) s

/-- PIDF_EVAL as an operation (R320); the value it returns is `pidOut`. -/
def execPidfEval (s : State) : Out :=
  runUpdate (fun s => { s with ctrl := pidfRegs s.cfg s.speed.speedFilt s.ctrl }) s

/-- PWM_FILTER as an operation (R327). -/
def execPwmFilter (x : Half) (s : State) : Out :=
  runUpdate (fun s => { s with ctrl := pwmFilterRegs s.cfg x.toInt s.ctrl }) s

/-- CTRL_STAGE as an operation (R330). -/
def execCtrlStage (s : State) : Out := runUpdate ctrlStage s

end Sys2Proof.Machine
end

