-- ==== Sys2Proof/Machine/Flags.lean ====
section
/-! DEFINITION. The combinational outputs and the status byte: everything the block packs from its flags. -/

namespace Sys2Proof.Machine

/-- `out_en` = enable ∧ ¬estop ∧ ¬overcurrent, evaluated from the current state and level (R31, R503). -/
def outEn (s : State) : Bool := s.safety.enable && !s.safety.estop && !s.ports.overcurrent

/-- `estop_out` = estop (R43). -/
def estopOut (s : State) : Bool := s.safety.estop

/-- The status byte, from bit 7: sectorValid, restartPending, mode (2 bits), wdtExpired, overcurrent, estop, enable
(R137). -/
def statusByte (s : State) : Byte :=
  BitVec.ofBool s.hall.sectorValid ++ BitVec.ofBool s.ctrl.restartPending ++ s.ctrl.mode.code
    ++ BitVec.ofBool s.safety.wdtExpired ++ BitVec.ofBool s.ports.overcurrent ++ BitVec.ofBool s.safety.estop
    ++ BitVec.ofBool s.safety.enable

end Sys2Proof.Machine
end

