-- ==== Sys2Proof/Machine/Command.lean ====
section
/-! DEFINITION. command_dispatcher_fsm, its commands (45_command_dispatcher.md R400 to R411), and EXPIRE
(46_top_level_events.md R466), which shares SetPower(0) with XXX. A command's operand is the payload; the reload of the
watchdog and the reply belong to DISPATCH (R400, R410, R430; log 17). -/

namespace Sys2Proof.Machine

/-! ### The commands -/

/-- ENA (R401). -/
def cmdEna (s : State) : State := { s with safety := { s.safety with enable := true, wdtExpired := false } }

/-- DIS (R402). -/
def cmdDis (s : State) : State := { s with safety := { s.safety with enable := false } }

/-- POW (R403): no effect on a payload shorter than 2 (R409). -/
def cmdPow (pl : List Byte) (s : State) : State := if 2 ≤ pl.length then setPower (plS16 pl) s else s

/-- DOG (R404): no effect on a payload shorter than 2 (R409). -/
def cmdDog (pl : List Byte) (s : State) : State :=
  if 2 ≤ pl.length then
    { s with conf := { s.conf with wdtInterval := plU16 pl 0 }, safety := { s.safety with wdtCnt := plU16 pl 0 } }
  else s

/-- RES (R405). -/
def cmdRes (s : State) : State := { s with hall := { s.hall with odo := 0 } }

/-- MOD (R406): no effect on a payload shorter than 3 or with `pl[0]` above 1 (R409). -/
def cmdMod (pl : List Byte) (s : State) : State :=
  if 3 ≤ pl.length ∧ (plByte pl 0).toNat ≤ 1 then
    { s with conf := { s.conf with commMode := plCommMode pl, stepThresh := plU16 pl 1 } }
  else s

/-- SPE (R407): no effect on a payload shorter than 2 (R409). -/
def cmdSpe (pl : List Byte) (s : State) : State := if 2 ≤ pl.length then setSpeed (plS16 pl) s else s

/-- XXX (R408): SetPower(0), then `enable` cleared and `estop` latched. -/
def cmdXxx (s : State) : State :=
  let s := setPower 0 s
  { s with safety := { s.safety with enable := false, estop := true } }

/-- EXPIRE (R466): `wdtExpired` latched, `enable` cleared, then SetPower(0). -/
def expire (s : State) : State :=
  setPower 0 { s with safety := { s.safety with wdtExpired := true, enable := false } }

/-- The case on the command of DISPATCH (R400); no effect for a byte outside CMD_CODE (R409). -/
def runCommand (c : Option CmdName) (pl : List Byte) (s : State) : State :=
  match c with
  | some .ena => cmdEna s
  | some .dis => cmdDis s
  | some .pow => cmdPow pl s
  | some .dog => cmdDog pl s
  | some .mod => cmdMod pl s
  | some .res => cmdRes s
  | some .spe => cmdSpe pl s
  | some .xxx => cmdXxx s
  | none => s

/-- The watchdog reload (R410). -/
def reload (s : State) : State := { s with safety := { s.safety with wdtCnt := s.conf.wdtInterval } }

/-! ### As operations -/

/-- EXPIRE as an operation (R466). -/
def execExpire (s : State) : Out := runUpdate expire s

/-- ENA as an operation (R401); payload bytes are ignored. -/
def execEna (_pl : List Byte) (s : State) : Out := runUpdate cmdEna s

/-- DIS as an operation (R402); payload bytes are ignored. -/
def execDis (_pl : List Byte) (s : State) : Out := runUpdate cmdDis s

/-- POW as an operation (R403). -/
def execPow (pl : List Byte) (s : State) : Out := runUpdate (cmdPow pl) s

/-- DOG as an operation (R404). -/
def execDog (pl : List Byte) (s : State) : Out := runUpdate (cmdDog pl) s

/-- MOD as an operation (R406). -/
def execMod (pl : List Byte) (s : State) : Out := runUpdate (cmdMod pl) s

/-- RES as an operation (R405); payload bytes are ignored. -/
def execRes (_pl : List Byte) (s : State) : Out := runUpdate cmdRes s

/-- SPE as an operation (R407). -/
def execSpe (pl : List Byte) (s : State) : Out := runUpdate (cmdSpe pl) s

/-- XXX as an operation (R408); payload bytes are ignored. -/
def execXxx (_pl : List Byte) (s : State) : Out := runUpdate cmdXxx s

/-- UNKNOWN_CMD as an operation: no effect (R409; the reload is DISPATCH's). -/
def execUnknownCmd (_cid : Byte) (_pl : List Byte) (s : State) : Out := runUpdate (fun s => s) s

end Sys2Proof.Machine
end

