-- ==== Sys2Proof/Machine/Reply.lean ====
section
/-! DEFINITION. The reply encoder (45_command_dispatcher.md R420 to R432): response payloads (30_encoding.md R133 to
R137) and REPLY. -/

namespace Sys2Proof.Machine

/-- The position value: wrap32(odo · DIST_PER_CYCLE) (R421). -/
def position (s : State) : Int := wrap32 (s.hall.odo * s.cfg.distPerCycle)

/-- The payload of each response (R421 to R428); `none` is an unknown nonzero rid, empty payload (R429). -/
def rspPayload (r : Option RspName) (s : State) : List Byte :=
  match r with
  | some .nor => []
  | some .speed => le16 s.speed.speedFilt
  | some .position => le32 (position s)
  | some .battery => bytes16 s.ports.vbat
  | some .current => bytes16 s.ports.ibus
  | some .pwm => le16 s.ctrl.pwmOut
  | some .watchdog => bytes16 s.conf.wdtInterval
  | some .pidf => le16 s.ctrl.pTerm ++ le16 s.ctrl.iTerm ++ le16 s.ctrl.fTerm
  | some .telemetry => le16 s.speed.speedFilt ++ le32 (position s) ++ le16 s.ctrl.pwmOut ++ [statusByte s]
  | none => []

/-- The reply frame with a payload: seq, cid and rid copied, dest = REPLY_DEST, correct CRC (R430). -/
def replyFrame (cfg : Config) (seq : BitVec 4) (cid rid : Byte) (pl : List Byte) : List Byte :=
  encodeFrame { seq := seq, dest := cfg.replyDest, cid := cid, rid := rid, payload := pl }

/-- Append the reply frame with the payload of a response (R430). -/
def sendReply (r : Option RspName) (seq : BitVec 4) (cid rid : Byte) (s : State) : State :=
  emit (replyFrame s.cfg seq cid rid (rspPayload r s)) s

/-- REPLY, the response being selected by rid (R420, R430). -/
def reply (seq : BitVec 4) (cid rid : Byte) (s : State) : State :=
  sendReply (s.cfg.rspCode.lookup rid) seq cid rid s

/-! ### As operations -/

/-- REPLY as an operation (R430). It sends a frame for every rid: whether to reply is DISPATCH's test (R400). -/
def execReply (seq : BitVec 4) (cid rid : Byte) (s : State) : Out := runUpdate (reply seq cid rid) s

/-- RSP_NOR as an operation: no reply (R420). -/
def execRspNor (_seq : BitVec 4) (_cid : Byte) (s : State) : Out := runUpdate (fun s => s) s

/-- RSP_SPEED as an operation (R422, R430). -/
def execRspSpeed (seq : BitVec 4) (cid : Byte) (s : State) : Out :=
  runUpdate (fun s => sendReply (some .speed) seq cid s.cfg.rspCode.speed s) s

/-- RSP_POSITION as an operation (R421, R430). -/
def execRspPosition (seq : BitVec 4) (cid : Byte) (s : State) : Out :=
  runUpdate (fun s => sendReply (some .position) seq cid s.cfg.rspCode.position s) s

/-- RSP_BATTERY as an operation (R423, R430). -/
def execRspBattery (seq : BitVec 4) (cid : Byte) (s : State) : Out :=
  runUpdate (fun s => sendReply (some .battery) seq cid s.cfg.rspCode.battery s) s

/-- RSP_CURRENT as an operation (R424, R430). -/
def execRspCurrent (seq : BitVec 4) (cid : Byte) (s : State) : Out :=
  runUpdate (fun s => sendReply (some .current) seq cid s.cfg.rspCode.current s) s

/-- RSP_PWM as an operation (R425, R430). -/
def execRspPwm (seq : BitVec 4) (cid : Byte) (s : State) : Out :=
  runUpdate (fun s => sendReply (some .pwm) seq cid s.cfg.rspCode.pwm s) s

/-- RSP_WATCHDOG as an operation (R426, R430). -/
def execRspWatchdog (seq : BitVec 4) (cid : Byte) (s : State) : Out :=
  runUpdate (fun s => sendReply (some .watchdog) seq cid s.cfg.rspCode.watchdog s) s

/-- RSP_PIDF as an operation (R427, R430). -/
def execRspPidf (seq : BitVec 4) (cid : Byte) (s : State) : Out :=
  runUpdate (fun s => sendReply (some .pidf) seq cid s.cfg.rspCode.pidf s) s

/-- RSP_TELEMETRY as an operation (R428, R430). -/
def execRspTelemetry (seq : BitVec 4) (cid : Byte) (s : State) : Out :=
  runUpdate (fun s => sendReply (some .telemetry) seq cid s.cfg.rspCode.telemetry s) s

/-- RSP_UNKNOWN as an operation: an empty payload (R429, R430). -/
def execRspUnknown (seq : BitVec 4) (cid rid : Byte) (s : State) : Out :=
  runUpdate (sendReply none seq cid rid) s

end Sys2Proof.Machine
end

