-- ==== Sys2Proof/Machine/Receive.lean ====
section
/-! DEFINITION. crc16_ccitt_checker and serial_frame_parser (44_frame_parser.md), and DISPATCH
(45_command_dispatcher.md R400), which a validated frame runs inside the same transaction. -/

namespace Sys2Proof.Machine

/-! ### DISPATCH -/

/-- A frame for another address under a set ADDR_FILTER (R400). -/
def filtered (cfg : Config) (f : Frame) : Bool :=
  match cfg.addrFilter with
  | none => false
  | some a => f.dest != a

/-- DISPATCH (R400): filter, watchdog reload, the command, then the reply unless rid is NOR. -/
def dispatch (f : Frame) (s : State) : State :=
  if filtered s.cfg f then s
  else
    let s := runCommand (s.cfg.cmdCode.lookup f.cid) f.payload (reload s)
    if f.rid = s.cfg.rspCode.nor then s else reply f.seq f.cid f.rid s

/-! ### The parser -/

/-- FRAME_CHECK(L) on the buffer (R355); with CRC_CHECK_EN = 0 the CRC comparison passes (R352). -/
def frameCheck (cfg : Config) (buf : List Host.Cell) (len : Nat) : Bool :=
  Memory.read buf 0 == som && Memory.read buf (7 + len) == eom &&
    (!cfg.crcCheckEn ||
      crc16 (Memory.slice buf 0 (5 + len)) == half (Memory.read buf (5 + len)) (Memory.read buf (6 + len)))

/-- The frame in the first L + 8 bytes of the buffer (R364). -/
def frameOf (buf : List Host.Cell) (len : Nat) : Frame :=
  frameFields (Memory.read buf 2) (Memory.read buf 3) (Memory.read buf 4) (Memory.slice buf 5 len)

/-- Back to IDLE, the buffer dropped (R363 to R365). -/
def Parser.idle (p : Parser) : Parser := { p with recording := false, idx := 0 }

/-- The least k in 1 .. idx-1 with buf[k] = SOM (R365). -/
def nextSom (buf : List Host.Cell) (idx : Nat) : Option Nat :=
  ((List.range idx).drop 1).find? (fun k => Memory.read buf k == som)

/-- The check loop of R366, one pass per unit of fuel. A pass that goes on makes `idx` smaller, so `idx` passes always
suffice (`checkLoop_fuel` in Laws/Ops.lean). -/
def checkLoop (cfg : Config) : Nat → Parser → Parser × Option Frame
  | 0, p => (p, none)
  | fuel + 1, p =>
    if p.idx < 2 then (p, none)
    else
      let len := (Memory.read p.buf 1).toNat
      if maxPayload < len then (p.idle, none)
      else if p.idx < len + frameOverhead then (p, none)
      else if frameCheck cfg p.buf len then (p.idle, some (frameOf p.buf len))
      else
        match nextSom p.buf p.idx with
        | none => (p.idle, none)
        | some j =>
          checkLoop cfg fuel { p with buf := Memory.shiftLeft p.buf j (p.idx - j), idx := p.idx - j }

/-- RX_PARSE up to the hand-over of a validated frame (R360 to R366). -/
def parseByte (cfg : Config) (b : Byte) (p : Parser) : Parser × Option Frame :=
  if p.recording = false then
    if b = som then ({ recording := true, idx := 1, buf := Memory.write p.buf 0 b }, none) else (p, none)
  else checkLoop cfg (p.idx + 1) { p with buf := Memory.write p.buf p.idx b, idx := p.idx + 1 }

/-- RX_PARSE with the dispatch of a validated frame in the same transaction (R366, R460). -/
def rxParse (b : Byte) (s : State) : State :=
  match parseByte s.cfg b s.parser with
  | (p, none) => { s with parser := p }
  | (p, some f) => dispatch f { s with parser := p }

/-! ### As operations -/

/-- DISPATCH as an operation (R400). -/
def execDispatch (f : Frame) (s : State) : Out := runUpdate (dispatch f) s

/-- RX_PARSE as an operation (R366). -/
def execRxParse (b : Byte) (s : State) : Out := runUpdate (rxParse b) s

/-- CRC16 as an operation (R350): pure. -/
def execCrc16 (bytes : List Byte) (s : State) : Out := runUpdate (fun s => { s with result := .crc (crc16 bytes) }) s

/-- FRAME_CHECK as an operation (R355): pure. Bytes at or beyond `idx` are the last written ones (R45, log 21). -/
def execFrameCheck (len : Fin 10) (s : State) : Out :=
  runUpdate (fun s => { s with result := .valid (frameCheck s.cfg s.parser.buf len.val) }) s

end Sys2Proof.Machine
end

