-- ==== Sys2Proof/Machine/Speed.lean ====
section
/-! DEFINITION. speed_estimator_lowpass (42_speed_estimator.md): SPEED_UPDATE and SPEED_STAGE. -/

namespace Sys2Proof.Machine

/-- The raw speed of a tick, from the latched period and the measured direction (R274). -/
def rawSpeed (cfg : Config) (phasePeriod : Nat) (dir : Direction) : Int :=
  if cfg.maxPhasePeriod ≤ phasePeriod then 0 else tdiv cfg.speedTicksFactor phasePeriod * dir.toInt

/-- SPEED_UPDATE on the estimator's registers (R275). -/
def speedUpdateRegs (cfg : Config) (raw : Int) (r : SpeedRegs) : SpeedRegs :=
  let reg := r.speedReg + raw - asr r.speedReg cfg.speedShift
  { r with speedReg := reg, speedFilt := asr reg cfg.speedShift }

/-- SPEED_STAGE on the estimator's registers (R271, R272, R277, R279). -/
def speedStageRegs (cfg : Config) (transition : Bool) (dir : Direction) (r : SpeedRegs) : SpeedRegs :=
  let cnt := min (r.phaseCnt + 1) cfg.maxPhasePeriod
  if transition = true then
    speedUpdateRegs cfg (rawSpeed cfg cnt dir) { r with phaseCnt := 0, phasePeriod := cnt }
  else if cnt = cfg.maxPhasePeriod then
    { phaseCnt := cnt, phasePeriod := cfg.maxPhasePeriod, speedReg := 0, speedFilt := 0 }
  else speedUpdateRegs cfg (rawSpeed cfg r.phasePeriod dir) { r with phaseCnt := cnt }

/-- SPEED_STAGE (R279): it reads `transition` and `hallDir` as HALL_STAGE left them (R270). -/
def speedStage (s : State) : State :=
  { s with speed := speedStageRegs s.cfg s.hall.transition s.hall.hallDir s.speed }

/-- SPEED_STAGE as an operation (R279). -/
def execSpeedStage (s : State) : Out := runUpdate speedStage s

/-- SPEED_UPDATE as an operation (R275). -/
def execSpeedUpdate (raw : Word32) (s : State) : Out :=
  runUpdate (fun s => { s with speed := speedUpdateRegs s.cfg raw.toInt s.speed }) s

end Sys2Proof.Machine
end

