-- ==== Sys2Proof/Machine/Top.lean ====
section
/-! DEFINITION. The four transactions (46_top_level_events.md). -/

namespace Sys2Proof.Machine

/-- RESET (R450): every register takes its reset value. The port levels, the environment's later samples and the
model's free-choice counter are not the block's and stay. -/
def doReset (s : State) : State := State.resetWith s.cfg s.ports s.inputs s.issue s.orderCount

/-- RESET as a transaction (R450); it needs no earlier RESET (R46). -/
def execReset (s : State) : Out :=
  match s.cfg.check with
  | some flaw => .refused (.configuration flaw)
  | none => .next (doReset s)

/-- CTRL_TICK: the four stages in order (R451, R243). -/
def ctrlTick (h : BitVec 3) (s : State) : State := synthStage (ctrlStage (speedStage (hallStage h s)))

/-- CTRL_TICK as a transaction (R451). The overcurrent level of the strobe is the level the port then shows, which
`out_en` reads (R30, R31; log 16); the hall level is not stored (R453). -/
def execCtrlTick (h : BitVec 3) (overcurrent : Bool) (s : State) : Out :=
  runUpdate (fun s => ctrlTick h { s with ports := { s.ports with overcurrent := overcurrent } }) s

/-- RX_BYTE as a transaction (R460): the parser, and the dispatcher when a frame is complete. The vbat and ibus levels
are the ones a reply of this transaction samples (R423, R424; log 16). -/
def execRxByte (b : Byte) (vbat ibus : Half) (s : State) : Out :=
  runUpdate (fun s => rxParse b { s with ports := { s.ports with vbat := vbat, ibus := ibus } }) s

/-- WDT_TICK (R465). -/
def wdtTick (s : State) : State :=
  if s.conf.wdtInterval = 0#16 ∨ s.safety.wdtExpired = true then s
  else if s.safety.wdtCnt = 0#16 then s
  else
    let cnt := s.safety.wdtCnt - 1#16
    let s := { s with safety := { s.safety with wdtCnt := cnt } }
    if cnt = 0#16 then expire s else s

/-- WDT_TICK as a transaction (R465). -/
def execWdtTick (s : State) : Out := runUpdate wdtTick s

end Sys2Proof.Machine
end

