-- ==== Sys2Proof/Machine/Dispatch.lean ====
section
/-! DEFINITION. exec: one arm per constructor of Instr, each one direct call of its meaning. -/

namespace Sys2Proof.Machine

def exec (i : Instr) (s : State) : Host.Outcome State Fault Refusal :=
  match i with
  | .reset => Sys2Proof.Machine.execReset s
  | .ctrlTick h oc => Sys2Proof.Machine.execCtrlTick h oc s
  | .rxByte b v u => Sys2Proof.Machine.execRxByte b v u s
  | .wdtTick => Sys2Proof.Machine.execWdtTick s
  | .hallStage c => Sys2Proof.Machine.execHallStage c s
  | .hallDecode c => Sys2Proof.Machine.execHallDecode c s
  | .speedStage => Sys2Proof.Machine.execSpeedStage s
  | .speedUpdate raw => Sys2Proof.Machine.execSpeedUpdate raw s
  | .ctrlStage => Sys2Proof.Machine.execCtrlStage s
  | .stepperStep => Sys2Proof.Machine.execStepperStep s
  | .pidfEval => Sys2Proof.Machine.execPidfEval s
  | .pwmFilter x => Sys2Proof.Machine.execPwmFilter x s
  | .synthStage => Sys2Proof.Machine.execSynthStage s
  | .blockCommutate pwm k => Sys2Proof.Machine.execBlockCommutate pwm k s
  | .sineCommutate m a => Sys2Proof.Machine.execSineCommutate m a s
  | .pulseClamp x => Sys2Proof.Machine.execPulseClamp x s
  | .setPower v => Sys2Proof.Machine.execSetPower v s
  | .setSpeed v => Sys2Proof.Machine.execSetSpeed v s
  | .rxParse b => Sys2Proof.Machine.execRxParse b s
  | .crc16 bytes => Sys2Proof.Machine.execCrc16 bytes s
  | .frameCheck len => Sys2Proof.Machine.execFrameCheck len s
  | .dispatch f => Sys2Proof.Machine.execDispatch f s
  | .reply seq cid rid => Sys2Proof.Machine.execReply seq cid rid s
  | .expire => Sys2Proof.Machine.execExpire s
  | .ena pl => Sys2Proof.Machine.execEna pl s
  | .dis pl => Sys2Proof.Machine.execDis pl s
  | .pow pl => Sys2Proof.Machine.execPow pl s
  | .dog pl => Sys2Proof.Machine.execDog pl s
  | .mod pl => Sys2Proof.Machine.execMod pl s
  | .res pl => Sys2Proof.Machine.execRes pl s
  | .spe pl => Sys2Proof.Machine.execSpe pl s
  | .xxx pl => Sys2Proof.Machine.execXxx pl s
  | .unknownCmd cid pl => Sys2Proof.Machine.execUnknownCmd cid pl s
  | .rspNor seq cid => Sys2Proof.Machine.execRspNor seq cid s
  | .rspSpeed seq cid => Sys2Proof.Machine.execRspSpeed seq cid s
  | .rspPosition seq cid => Sys2Proof.Machine.execRspPosition seq cid s
  | .rspBattery seq cid => Sys2Proof.Machine.execRspBattery seq cid s
  | .rspCurrent seq cid => Sys2Proof.Machine.execRspCurrent seq cid s
  | .rspPwm seq cid => Sys2Proof.Machine.execRspPwm seq cid s
  | .rspWatchdog seq cid => Sys2Proof.Machine.execRspWatchdog seq cid s
  | .rspPidf seq cid => Sys2Proof.Machine.execRspPidf seq cid s
  | .rspTelemetry seq cid => Sys2Proof.Machine.execRspTelemetry seq cid s
  | .rspUnknown seq cid rid => Sys2Proof.Machine.execRspUnknown seq cid rid s

end Sys2Proof.Machine
end

