-- ==== Sys2Proof/Machine/Fetch.lean ====
section
/-! DEFINITION. What a step runs next (00_scope.md R6, 20_memory.md R88, 46_top_level_events.md R470). The block has no
instruction fetch (R90): the transaction that arrives at the ports is what runs. Two sources stand in its place: an
operation word placed at the model's own input `issue` (log 3), else the strobes at the ports (log 1, 2). -/

namespace Sys2Proof.Machine

/-- The strobes other than RESET. -/
inductive Strobe where
  | ctrlTick | rxValid | wdtTick
deriving DecidableEq, Repr

/-- The strobes that are asserted, RESET apart. -/
def pendingStrobes (p : Ports) : List Strobe :=
  (if p.ctrlTick then [.ctrlTick] else []) ++ (if p.rxValid then [.rxValid] else [])
    ++ (if p.wdtTick then [.wdtTick] else [])

/-- No strobe is asserted. -/
def idlePorts (p : Ports) : Bool := !p.rst && (pendingStrobes p).isEmpty

/-- The ports with no strobe, levels kept. -/
def dropStrobes (p : Ports) : Ports := { p with rst := false, ctrlTick := false, rxValid := false, wdtTick := false }

/-- The sample with only the given strobe. -/
def onlyStrobe (p : Ports) : Strobe → Ports
  | .ctrlTick => { dropStrobes p with ctrlTick := true }
  | .rxValid => { dropStrobes p with rxValid := true }
  | .wdtTick => { dropStrobes p with wdtTick := true }

/-- The sample after the given strobe has been taken. -/
def takeStrobe (p : Ports) : Strobe → Ports
  | .ctrlTick => { p with ctrlTick := false }
  | .rxValid => { p with rxValid := false }
  | .wdtTick => { p with wdtTick := false }

/-- When the strobes of the last sample have all been taken, the next sample of the environment arrives. -/
def arrive (s : State) : State :=
  if idlePorts s.ports then
    match s.inputs with
    | [] => s
    | p :: rest => { s with ports := p, inputs := rest }
  else s

/-- The strobe that goes first, and the state with it taken. One strobe: that one. Several: any of them, by the free
value (R470). RESET only when no other is left: it is applied last (R470). -/
def takeNext (s : State) : Option (Ports × State) :=
  match pendingStrobes s.ports with
  | [] => if s.ports.rst then
      some ({ dropStrobes s.ports with rst := true }, { s with ports := dropStrobes s.ports }) else none
  | [t] => some (onlyStrobe s.ports t, { s with ports := takeStrobe s.ports t })
  | t :: u :: ts =>
    let l := t :: u :: ts
    let pick := l.getD (Config.strobeOrder s.orderCount % l.length) t
    some (onlyStrobe s.ports pick,
      { s with ports := takeStrobe s.ports pick, orderCount := s.orderCount + 1 })

/-- The word a step runs, if any, and the state with it taken from its source. -/
def fetch (s : State) : Option (List Byte) × State :=
  match s.issue with
  | b :: bs => (some (b :: bs), { s with issue := [] })
  | [] =>
    let s := arrive s
    match takeNext s with
    | some (p, t) => (some (encodePorts p), t)
    | none => (none, s)

/-- The state with a table word placed where the next step takes it (log 3, 5). -/
def placeTableWord (s : State) (w : Nat) : State := { s with issue := tableWordBytes s.cfg w }

end Sys2Proof.Machine
end

