-- ==== Sys2Proof/Machine/Step.lean ====
section
/-! DEFINITION. One step of the machine: the next operation is taken, decoded and run. With nothing to run, the block
holds its state (60_exceptions.md R518), but for the port levels of a sample without a strobe. -/

namespace Sys2Proof.Machine

/-- Run a word: the operation it stands for, or a refusal by name. -/
def runWord (word : List Byte) (s : State) : Host.Outcome State Fault Refusal :=
  match decode s.cfg word with
  | .ok i => exec i s
  | .error e => .refused (.undecodable e)

/-- One step. -/
def step (s : State) : Host.Outcome State Fault Refusal :=
  match fetch s with
  | (some word, t) => runWord word t
  | (none, t) => .next t

/-- `s` with a word of spec/opcode_table.json placed where the next step takes it. Table words are 8 bits wide; a word
of another width has no row and is placed nowhere (log 5). -/
def State.withFetchWord (s : State) (nbits w : Nat) : State := if nbits = 8 then placeTableWord s w else s

end Sys2Proof.Machine
end

