-- ==== Sys2Proof/Safety.lean ====
section
/-! DEFINITION. What counts as a safe state and a good run, in the terms the statements use: the ranges of the registers
(10_state.md R32 to R38), the invariants of each sub-block (R209, R280, R331, R360, R465), and what a run is. -/

namespace Sys2Proof.Machine

/-- The value lies in int32 (R12). -/
abbrev InInt32 (v : Int) : Prop := -2 ^ 31 ≤ v ∧ v < 2 ^ 31

/-- The invariants of the decoder (R32, R209). -/
abbrev HallRegs.Inv (h : HallRegs) : Prop :=
  InInt32 h.odo ∧ (h.sectorValid = false → h.hallDir = .still ∧ h.odo = 0) ∧ (h.validTr = true → h.transition = true) ∧
  (h.transition = true → h.sectorValid = true) ∧ (h.hallInvalid = true → h.transition = false)

/-- The ranges of an exponential low-pass filter register with input bound V and shift n: R275's range, whose upper end
V·2^n gives |output| ≤ V. -/
abbrev FilterRange (v : Int) (n : Nat) (reg : Int) : Prop := -(v * 2 ^ n) + 2 ^ n - 1 ≤ reg ∧ reg ≤ v * 2 ^ n

/-- The ranges of the estimator (R33, R275, R280). -/
abbrev SpeedRegs.Inv (cfg : Config) (r : SpeedRegs) : Prop :=
  r.phaseCnt ≤ cfg.maxPhasePeriod ∧ 1 ≤ r.phasePeriod ∧ r.phasePeriod ≤ cfg.maxPhasePeriod ∧
  FilterRange cfg.speedTicksFactor cfg.speedShift r.speedReg ∧ r.speedFilt = asr r.speedReg cfg.speedShift

/-- The value lies in -b..b. -/
abbrev Within (b v : Int) : Prop := -b ≤ v ∧ v ≤ b

/-- The ranges of the controller (R34, R327). -/
abbrev CtrlRegs.Ranges (cfg : Config) (r : CtrlRegs) : Prop :=
  Within pwmInMax r.pwmInput ∧ Within speedSpMax r.setpoint ∧ Within speedSpMax r.lastSetpoint ∧
  Within cfg.iLimit r.integral ∧ InInt32 r.pTerm ∧ InInt32 r.iTerm ∧ InInt32 r.fTerm ∧ Within pwmInMax r.pidOut ∧
  FilterRange pwmInMax cfg.pwmShift r.pwmReg ∧ r.pwmOut = asr r.pwmReg cfg.pwmShift ∧
  0 ≤ r.angleY ∧ r.angleY ≤ 359 ∧ r.stepCnt ≤ 65535

/-- The mode invariants of the controller (R331). -/
abbrev CtrlRegs.Modes (r : CtrlRegs) : Prop :=
  (r.restartPending = true → r.mode = .running) ∧ (r.mode = .openLoop ↔ r.setpoint = 0)

/-- The value lies in a pulse port's range (R30, R240). -/
abbrev PulseRange (cfg : Config) (p : Half) : Prop := pwmMargin ≤ p.toNat ∧ p.toNat ≤ cfg.pwmRes - pwmMargin

/-- The ranges of the phase outputs (R35, R240). -/
abbrev SynthRegs.Inv (cfg : Config) (r : SynthRegs) : Prop :=
  Within 125000 r.phaseY ∧ Within 125000 r.phaseB ∧ Within 125000 r.phaseG ∧
  PulseRange cfg r.pulseY ∧ PulseRange cfg r.pulseB ∧ PulseRange cfg r.pulseG

/-- The watchdog invariant: an armed, unexpired watchdog has ticks left (R465). -/
abbrev WatchdogInv (s : State) : Prop :=
  s.conf.wdtInterval ≠ 0#16 → s.safety.wdtCnt ≠ 0#16 ∨ s.safety.wdtExpired = true

/-- The parser invariant (R360, R362): in IDLE nothing is held; in RECORDING the buffer begins with SOM, and once two
bytes are held the length is legal and the frame incomplete. The buffer is in canonical form (R80). -/
abbrev Parser.Inv (p : Parser) : Prop :=
  Memory.wf p.buf = true ∧ (p.recording = false → p.idx = 0) ∧
  (p.recording = true → 1 ≤ p.idx ∧ Memory.read p.buf 0 = som ∧
    (2 ≤ p.idx → (Memory.read p.buf 1).toNat ≤ maxPayload ∧ p.idx < (Memory.read p.buf 1).toNat + frameOverhead))

/-- The parser is IDLE (R360). -/
abbrev Parser.IsIdle (p : Parser) : Prop := p.recording = false ∧ p.idx = 0

/-- The invariant of the block: legal configuration, RESET done, no operation issued by itself (on the real block
sub-operations run only inside a transaction, R142), and the invariants of every sub-block. -/
structure State.Inv (s : State) : Prop where
  legal : s.cfg.Legal
  booted : s.booted = true
  noIssue : s.issue = []
  hall : s.hall.Inv
  speed : s.speed.Inv s.cfg
  ranges : s.ctrl.Ranges s.cfg
  modes : s.ctrl.Modes
  synth : s.synth.Inv s.cfg
  watchdog : WatchdogInv s
  parser : s.parser.Inv

/-- A state that drives the power stage only when it may: `out_en` = 1 implies enable, no estop and no overcurrent
(R506). -/
abbrev State.Safe (s : State) : Prop :=
  outEn s = true → s.safety.enable = true ∧ s.safety.estop = false ∧ s.ports.overcurrent = false

/-- Run operations one after the other, stopping at the first fault or refusal. -/
def execAll : List Instr → State → Out
  | [], s => .next s
  | i :: is, s =>
    match exec i s with
    | .next t => execAll is t
    | .fault r => .fault r
    | .refused r => .refused r

/-- The RX_BYTE transactions of a byte sequence, under constant vbat and ibus levels (R143 `RX`). -/
def rxBytes (vbat ibus : Half) (bytes : List Byte) : List Instr := bytes.map (fun b => .rxByte b vbat ibus)

/-- The alignment of the byte sequence K at a SOM at offset j, of payload length K[j+1], passes FRAME_CHECK (R355). -/
def alignmentPasses (cfg : Config) (K : List Byte) (j : Nat) : Bool :=
  let len := (K.getD (j + 1) 0#8).toNat
  K.getD (j + 7 + len) 0#8 == eom &&
    (!cfg.crcCheckEn ||
      crc16 ((K.drop j).take (5 + len)) == half (K.getD (j + 5 + len) 0#8) (K.getD (j + 6 + len) 0#8))

/-- Condition P(K) of R372: every alignment that starts inside K aborts within K, or completes within K and fails
FRAME_CHECK. -/
abbrev ConditionP (cfg : Config) (K : List Byte) : Prop :=
  ∀ j < K.length, K.getD j 0#8 = som → j + 1 < K.length ∧
    (maxPayload < (K.getD (j + 1) 0#8).toNat ∨
      (j + (K.getD (j + 1) 0#8).toNat + frameOverhead ≤ K.length ∧ alignmentPasses cfg K j = false))

/-- The environment will deliver nothing more: no strobe asserted, no sample to come, nothing issued (R518). -/
abbrev State.Quiet (s : State) : Prop := idlePorts s.ports = true ∧ s.inputs = [] ∧ s.issue = []

end Sys2Proof.Machine
end

