-- ==== Sys2Proof/Certificates/Slice0/Obligations.lean ====
section
/-! DEFINITION. The statements for the provers. `s.Ready` says that R517 refuses nothing: it admits the configuration, and
a RESET has happened (R46). `s.Admitted` says so and that every parameter lies in its domain of R8. Floor
division `/` on Int is the spec's asr by a power of two (R13). -/

open Sys2Proof Sys2Proof.Machine

/-! ### How a step runs -/

/-- A step runs exactly the operation it takes: an issued word's, else the transaction of one strobe; with nothing to
take the block holds its state but for the levels of a sample without a strobe (R6, R88, R518). The next sample arrives
when every strobe of the last one has been taken, and not before (log 1). -/
def Obligations.StepRunsTheTakenOperation : Prop :=
  (∀ (s : State) (i : Instr), s.issue ≠ [] → decode s.cfg s.issue = .ok i →
    step s = exec i { s with issue := [] }) ∧
  (∀ (s t : State) (p : Ports) (i : Instr), s.issue = [] → takeNext (arrive s) = some (p, t) →
    p.transaction = .ok i → step s = exec i t) ∧
  (∀ s : State, s.issue = [] → takeNext (arrive s) = none → step s = .next (arrive s)) ∧
  (∀ s : State, arrive s = match s.inputs with
    | [] => s
    | p :: rest => if idlePorts s.ports = true then { s with ports := p, inputs := rest } else s) ∧
  (∀ s : State, s.Quiet → step s = .next s)

/-- Every strobe is taken (R508): where one is asserted, one is taken. Exactly one at a time, any of the asserted ones,
RESET only when no other is left; nothing but the ports and the model's choice counter changes (R470). The sample taken
starts the transaction of its strobe, with the levels of the ports (R6, R450, R451, R460, R465). -/
def Obligations.OneStrobeIsTakenAndResetLast : Prop :=
  (∀ s : State, s.ports.rst = true ∨ s.ports.ctrlTick = true ∨ s.ports.rxValid = true ∨ s.ports.wdtTick = true →
    ∃ p t, takeNext s = some (p, t)) ∧
  (∀ q : Ports,
    (idlePorts q = true ↔ q.rst = false ∧ q.ctrlTick = false ∧ q.rxValid = false ∧ q.wdtTick = false) ∧
    (∀ k, k ∈ pendingStrobes q ↔ match k with
      | .ctrlTick => q.ctrlTick = true
      | .rxValid => q.rxValid = true
      | .wdtTick => q.wdtTick = true) ∧
    { dropStrobes q with rst := true }.transaction = .ok .reset ∧
    (onlyStrobe q .ctrlTick).transaction = .ok (.ctrlTick q.hall q.overcurrent) ∧
    (onlyStrobe q .rxValid).transaction = .ok (.rxByte q.rxByte q.vbat q.ibus) ∧
    (onlyStrobe q .wdtTick).transaction = .ok .wdtTick) ∧
  ∀ (s t : State) (p : Ports), takeNext s = some (p, t) →
    t = { s with ports := t.ports, orderCount := t.orderCount } ∧
    ((∃ k ∈ pendingStrobes s.ports, p = onlyStrobe s.ports k ∧ t.ports = takeStrobe s.ports k) ∨
     (pendingStrobes s.ports = [] ∧ s.ports.rst = true ∧ p = { dropStrobes s.ports with rst := true } ∧
      t.ports = dropStrobes s.ports))

/-- RESET asserted with other strobes is applied last: after the instant the state is the reset state, whatever order
the other transactions took (R470). -/
def Obligations.ResetWithOtherStrobesLeavesTheResetState : Prop :=
  ∀ s : State, s.Inv → s.ports.rst = true →
    ∃ t, Host.Core.run Sys2Proof.core ((pendingStrobes s.ports).length + 1) s = .next t ∧
      t = State.resetWith s.cfg (dropStrobes s.ports) s.inputs [] t.orderCount

/-- Words written out from the spec's encodings decode to the operations they stand for: the frames of R132's examples
and of the frame table (95_test_vectors.md), cmdId and rspId bytes of R130 and R131. -/
def Obligations.SpecWordsDecode : Prop :=
  decodeFrame [0x2F#8, 0x00#8, 0x00#8, 0x03#8, 0x00#8, 0x1E#8, 0x38#8, 0x0A#8] =
      some { seq := 0#4, dest := 0#4, cid := 3#8, rid := 0#8, payload := [] } ∧
    decodeFrame [0x2F#8, 0x02#8, 0x40#8, 0x06#8, 0x06#8, 0xFA#8, 0x00#8, 0x04#8, 0x17#8, 0x0A#8] =
      some { seq := 4#4, dest := 0#4, cid := 6#8, rid := 6#8, payload := [0xFA#8, 0x00#8] } ∧
    decodeFrame [0x2F#8, 0x00#8, 0x00#8, 0x03#8, 0x00#8, 0x12#8, 0x34#8, 0x0A#8] = none ∧
    decodeCommand Tables.cmdDefault 5#8 [0xF4#8, 0x01#8] = .pow [0xF4#8, 0x01#8] ∧
    decodeCommand Tables.cmdDefault 7#8 [0x02#8, 0x2C#8, 0x01#8] = .unknownCmd 7#8 [0x02#8, 0x2C#8, 0x01#8] ∧
    decodeCommand Tables.cmdDefault 0x55#8 [] = .unknownCmd 0x55#8 [] ∧
    decodeResponse Tables.rspDefault 8#8 6#4 0x77#8 = .rspTelemetry 6#4 0x77#8 ∧
    decodeResponse Tables.rspDefault 0x20#8 1#4 4#8 = .rspUnknown 1#4 4#8 0x20#8

/-- Decoding the word of a well-formed operation gives it back, for every operation, every operand and every admitted
configuration: no bit of an encoding is dropped. -/
def Obligations.DecodeOfEncodeIsTheOperation : Prop :=
  ∀ (cfg : Config) (i : Instr), cfg.Legal → i.wf cfg = true → decode cfg (encode cfg i) = .ok i

/-! ### The invariant -/

/-- Every step keeps the invariant of the block: the ranges of R32 to R38, R209, R331, R360, R465 and the canonical form
of the frame buffer. -/
def Obligations.EveryStepKeepsTheInvariant : Prop :=
  ∀ s t : State, s.Inv → step s = .next t → t.Inv

/-- The reset state of every admitted configuration has the invariant. `State.reset` carries the test profile, the
model's choice (log 6). -/
def Obligations.ResetStateHasTheInvariant : Prop :=
  (∀ (cfg : Config) (ports : Ports) (inputs : List Ports) (n : Nat), cfg.Legal →
    (State.resetWith cfg ports inputs [] n).Inv) ∧ State.reset.Inv

/-- Every transaction is total (R500): in every state, reachable or not, in which R517 refuses nothing, every operation
with every operand completes, RESET even before an earlier one, and so does every step that takes a strobe or nothing.
The two stages that divide write only their registers also where the divisor is zero, which no reachable state has: the
quotient is a free value (the model's choice, log 9). -/
def Obligations.EveryOperationIsTotal : Prop :=
  (∀ (s : State) (i : Instr), s.Ready → ∃ t, exec i s = .next t) ∧
  (∀ s : State, s.cfg.check = none → ∃ t, exec .reset s = .next t) ∧
  (∀ s : State, s.Ready → s.issue = [] → ∃ t, step s = .next t) ∧
  (∀ s : State, s.Ready →
    (∃ t, exec .speedStage s = .next t ∧ t = { s with speed := t.speed }) ∧
    ∃ t, exec .stepperStep s = .next t ∧
      t = { s with ctrl := { s.ctrl with stepCnt := t.ctrl.stepCnt, angleY := t.ctrl.angleY } })

/-- Where the model stops (R517): every operation is refused, by the flaw's name, under a configuration that breaks PB1
to PB6 or has a HALL_TABLE, a pair of tables (matched read as of one revision, log 10) or a CMD_CODE that R517 names;
every operation but RESET is refused before the first RESET; and nothing else stops an operation. The last clause says
which configurations are not refused. -/
def Obligations.WhereTheModelStops : Prop :=
  (∀ (s : State) (i : Instr) (e : ConfigFlaw), s.cfg.check = some e → exec i s = .refused (.configuration e)) ∧
  (∀ (s : State) (i : Instr), s.cfg.check = none → s.booted = false → i ≠ .reset →
    exec i s = .refused .beforeReset) ∧
  (∀ (s : State) (i : Instr), (¬ ∃ t, exec i s = .next t) →
    (∃ e, s.cfg.check = some e ∧ exec i s = .refused (.configuration e)) ∨
      (s.booted = false ∧ i ≠ .reset ∧ exec i s = .refused .beforeReset)) ∧
  (∀ cfg : Config, cfg.check = none ↔
    ((cfg.speedTicksFactor : Int) + 1) * 2 ^ cfg.speedShift < 2 ^ 31 ∧
    (5000 + (cfg.speedTicksFactor : Int) + 1) * cfg.kp.natAbs < 2 ^ 31 ∧
    (5000 + (cfg.speedTicksFactor : Int) + 1) * cfg.ki.natAbs + cfg.iLimit < 2 ^ 31 ∧
    5000 * (cfg.kf.natAbs : Int) + cfg.kfo.natAbs < 2 ^ 31 ∧
    ((1000 : Int) + 1) * 2 ^ cfg.pwmShift < 2 ^ 31 ∧
    1 ≤ cfg.maxPhasePeriod ∧ cfg.maxPhasePeriod ≤ 65535 ∧ 2 * 10 + 2 ≤ cfg.pwmRes ∧
    (cfg.tables.hall.length = 8 ∧ cfg.tables.hall[0]? = some 7 ∧ cfg.tables.hall[7]? = some 7 ∧
      ∀ k < 6, ∃ c, 1 ≤ c ∧ c ≤ 6 ∧ cfg.tables.hall[c]? = some k) ∧
    cfg.tables.hallRevision = cfg.tables.blockRevision ∧ cfg.cmdCode.codes.Nodup ∧ cfg.cmdCode.ena = 3#8)

/-! ### The serial protocol -/

/-- Round trip (R370): the bytes of a frame, received from IDLE, change nothing but the parser until the last one, which
dispatches exactly that frame and leaves the parser IDLE. -/
def Obligations.FrameRoundTripThroughTheParser : Prop :=
  ∀ (f : Frame) (s : State), s.Admitted → s.parser.IsIdle → Memory.wf s.parser.buf = true → f.wf = true →
    (∀ n < (encodeFrame f).length, ∃ t,
      execAll (rxBytes s.ports.vbat s.ports.ibus ((encodeFrame f).take n)) s = .next t ∧
        t = { s with parser := t.parser }) ∧
    (∃ t u, execAll (rxBytes s.ports.vbat s.ports.ibus (encodeFrame f)) s = .next t ∧ t.parser.IsIdle ∧
      exec (.dispatch f) s = .next u ∧ t = { u with parser := t.parser })

/-- Resynchronisation under condition P (R372): after K the parser is IDLE with nothing dispatched, and a valid frame
right after K is dispatched exactly once, on its last byte: its earlier bytes change the parser only. -/
def Obligations.ResynchronisationUnderConditionP : Prop :=
  ∀ (K : List Byte) (f : Frame) (s : State), s.Admitted → s.parser.IsIdle → Memory.wf s.parser.buf = true →
    f.wf = true → ConditionP s.cfg K →
    (∃ t, execAll (rxBytes s.ports.vbat s.ports.ibus K) s = .next t ∧ t.parser.IsIdle ∧
      t = { s with parser := t.parser }) ∧
    (∀ n < (encodeFrame f).length, ∃ t,
      execAll (rxBytes s.ports.vbat s.ports.ibus (K ++ (encodeFrame f).take n)) s = .next t ∧
        t = { s with parser := t.parser }) ∧
    (∃ t u, execAll (rxBytes s.ports.vbat s.ports.ibus (K ++ encodeFrame f)) s = .next t ∧ t.parser.IsIdle ∧
      exec (.dispatch f) s = .next u ∧ t = { u with parser := t.parser })

/-- Flush (R564): from every parser state, fifteen bytes of 0x00 leave the parser IDLE. -/
def Obligations.FifteenZeroBytesFlushTheParser : Prop :=
  ∀ (s : State) (vbat ibus : Half), s.Admitted → s.parser.Inv →
    ∃ t, execAll (rxBytes vbat ibus (List.replicate 15 0#8)) s = .next t ∧ t.parser.IsIdle

/-- The CRC changes under every single-bit error of the bytes it covers (the property that R371 rests on). -/
def Obligations.CrcDetectsEverySingleBitError : Prop :=
  ∀ (m : List Byte) (k bit : Nat) (h : k < m.length), bit < 8 →
    crc16 (m.set k (m[k] ^^^ (1#8 <<< bit))) ≠ crc16 m

/-- R371 as it is worded, for frames of any payload. EXPECTED TO FAIL: the parser of R365 resynchronises into the
payload, which may hold a whole valid frame (log 18). -/
def Obligations.NoFrameDispatchedAfterAnySingleBitError : Prop :=
  ∀ (f : Frame) (k bit : Nat) (h : k < (encodeFrame f).length), f.wf = true → bit < 8 →
    ∃ t, execAll (rxBytes 0#16 0#16 ((encodeFrame f).set k ((encodeFrame f)[k] ^^^ (1#8 <<< bit)))) State.reset =
        .next t ∧ t = { State.reset with parser := t.parser }

/-- IDLE and waiting (R361 to R363): a byte other than SOM is ignored, SOM starts a frame, a byte of an incomplete frame
is appended, a length above 9 aborts. -/
def Obligations.ParserStartsAppendsAndAborts : Prop :=
  ∀ (b : Byte) (s : State), s.Admitted → Memory.wf s.parser.buf = true →
    (s.parser.recording = false → b ≠ 0x2F#8 → exec (.rxParse b) s = .next s) ∧
    (s.parser.recording = false → b = 0x2F#8 → ∃ t, exec (.rxParse b) s = .next t ∧
      t = { s with parser := t.parser } ∧ t.parser.recording = true ∧ t.parser.idx = 1 ∧
      ∀ a, Memory.read t.parser.buf a = if a = 0 then 0x2F#8 else Memory.read s.parser.buf a) ∧
    (s.parser.recording = true → s.parser.idx ≤ 16 → ∃ t, exec (.rxParse b) s = .next t ∧
      (let len := (if s.parser.idx = 1 then b else Memory.read s.parser.buf 1).toNat
       (s.parser.idx = 0 ∨ (len ≤ 9 ∧ s.parser.idx + 1 < len + 8) →
         t = { s with parser := t.parser } ∧ t.parser.recording = true ∧ t.parser.idx = s.parser.idx + 1 ∧
         ∀ a, Memory.read t.parser.buf a = if a = s.parser.idx then b else Memory.read s.parser.buf a) ∧
       (1 ≤ s.parser.idx → 9 < len →
         t = { s with parser := t.parser } ∧ t.parser.recording = false ∧ t.parser.idx = 0 ∧
         ∀ a, Memory.read t.parser.buf a = if a = s.parser.idx then b else Memory.read s.parser.buf a)))

/-- Completion (R364): the byte that completes a frame which FRAME_CHECK passes runs DISPATCH of that frame from an IDLE
parser. -/
def Obligations.ValidatedFrameIsDispatched : Prop :=
  ∀ (b : Byte) (s : State), s.Admitted → s.parser.recording = true → 1 ≤ s.parser.idx → s.parser.idx ≤ 16 →
    let buf := Memory.write s.parser.buf s.parser.idx b
    let s1 : State := { s with parser := { s.parser with buf := buf, idx := s.parser.idx + 1 } }
    ∀ len : Fin 10, (Memory.read buf 1).toNat = len.val → len.val + 8 ≤ s.parser.idx + 1 →
    exec (.frameCheck len) s1 = .next { s1 with result := .valid true } →
    exec (.rxParse b) s =
      exec (.dispatch
        { seq := (Memory.read buf 2).extractLsb' 4 4, dest := (Memory.read buf 2).extractLsb' 0 4
          cid := Memory.read buf 3, rid := Memory.read buf 4
          payload := (List.range len.val).map (fun k => Memory.read buf (5 + k)) })
        { s with parser := { recording := false, idx := 0, buf := buf } }

/-- Resynchronisation of one pass (R365): on a failed check, no later SOM leaves IDLE; the least later SOM is shifted to
the front, and its alignment waits or aborts on its length. An alignment that is already complete is checked in the same
transaction (R366): RX_PARSE then does what it does for the shifted buffer's last byte on a parser that holds the bytes
before it, which this statement and ValidatedFrameIsDispatched describe again for the shorter buffer: another shift, or
the dispatch of its frame with the bytes beyond it discarded (R364). -/
def Obligations.FailedCheckShiftsToTheNextSom : Prop :=
  ∀ (b : Byte) (s : State), s.Admitted → Memory.wf s.parser.buf = true → s.parser.recording = true →
    1 ≤ s.parser.idx → s.parser.idx ≤ 16 →
    let n := s.parser.idx + 1
    let buf := Memory.write s.parser.buf s.parser.idx b
    let s1 : State := { s with parser := { s.parser with buf := buf, idx := n } }
    ∀ len : Fin 10, (Memory.read buf 1).toNat = len.val → len.val + 8 ≤ n →
    exec (.frameCheck len) s1 = .next { s1 with result := .valid false } →
    ((∀ k, 1 ≤ k → k < n → Memory.read buf k ≠ 0x2F#8) →
      exec (.rxParse b) s = .next { s with parser := { recording := false, idx := 0, buf := buf } }) ∧
    (∀ j, 1 ≤ j → j < n → Memory.read buf j = 0x2F#8 →
      (∀ k, 1 ≤ k → k < j → Memory.read buf k ≠ 0x2F#8) →
      let len' := (Memory.read buf (j + 1)).toNat
      (n - j < 2 ∨ (len' ≤ 9 ∧ n - j < len' + 8) → ∃ t, exec (.rxParse b) s = .next t ∧
        t = { s with parser := t.parser } ∧ t.parser.recording = true ∧ t.parser.idx = n - j ∧
        ∀ k < n - j, Memory.read t.parser.buf k = Memory.read buf (k + j)) ∧
      (2 ≤ n - j → 9 < len' → ∃ t, exec (.rxParse b) s = .next t ∧
        t = { s with parser := t.parser } ∧ t.parser.IsIdle) ∧
      (2 ≤ n - j → len' ≤ 9 → len' + 8 ≤ n - j → ∃ buf' : List Host.Cell, Memory.wf buf' = true ∧
        (∀ k < n - j, Memory.read buf' k = Memory.read buf (k + j)) ∧
        exec (.rxParse b) s = exec (.rxParse (Memory.read buf (n - 1)))
          { s with parser := { recording := true, idx := n - j - 1, buf := buf' } }))

/-- CRC16 (R350): the empty sequence gives 0; one more byte is XORed into the high byte and shifted eight times; pure. -/
def Obligations.CrcFollowsItsPseudocode : Prop :=
  (∀ (bytes : List Byte) (s : State), s.Admitted →
    exec (.crc16 bytes) s = .next { s with result := .crc (crc16 bytes) }) ∧
  crc16 [] = 0#16 ∧
  (∀ (m : List Byte) (b : Byte),
    crc16 (m ++ [b]) =
      (fun c : BitVec 16 => if c.getLsbD 15 = true then (c <<< 1) ^^^ 0x1021#16 else c <<< 1)^[8]
        (crc16 m ^^^ (b.setWidth 16 <<< 8)))

/-- FRAME_CHECK (R355): SOM, EOM and, where the check is enabled, the CRC over bytes 0 .. 4+L; pure. R355 gives it for
L = buf[1] and idx at least L + 8; issued by itself it reads the bytes that stand in the buffer, also those at or beyond
idx, where the last written value stands: the model's choice (log 21). -/
def Obligations.FrameCheckFollowsItsPseudocode : Prop :=
  ∀ (len : Fin 10) (s : State), s.Admitted →
    exec (.frameCheck len) s = .next { s with result := .valid (decide
      (Memory.read s.parser.buf 0 = 0x2F#8 ∧ Memory.read s.parser.buf (7 + len.val) = 0x0A#8 ∧
        (s.cfg.crcCheckEn = true →
          crc16 ((List.range (5 + len.val)).map (Memory.read s.parser.buf)) =
            Memory.read s.parser.buf (6 + len.val) ++ Memory.read s.parser.buf (5 + len.val)))) }

/-! ### The transactions -/

/-- RESET (R550): every piece of state takes the value of the table, and both output flags fall; it needs no earlier
RESET. The pulse ports hold PWM_RES >> 1 wherever their 16 bits can (R87); no clause fixes what they hold for a larger one
(log 12). -/
def Obligations.ResetGivesEveryRegisterItsValue : Prop :=
  (∀ s : State, s.cfg.check = none → exec .reset s = .next
    { cfg := s.cfg, booted := true, ports := s.ports
      hall := { sector := 0, sectorValid := false, hallDir := .still, odo := 0, transition := false
                validTr := false, hallInvalid := false }
      speed := { phaseCnt := s.cfg.maxPhasePeriod, phasePeriod := s.cfg.maxPhasePeriod, speedReg := 0
                 speedFilt := 0 }
      ctrl := { mode := .openLoop, restartPending := false, pwmInput := 0, setpoint := 0, lastSetpoint := 0
                integral := 0, pTerm := 0, iTerm := 0, fTerm := 0, pidOut := 0, pwmReg := 0, pwmOut := 0
                angleY := 0, stepCnt := 0 }
      synth := { phaseY := 0, phaseB := 0, phaseG := 0, pulseY := pulsePort (s.cfg.pwmRes / 2)
                 pulseB := pulsePort (s.cfg.pwmRes / 2), pulseG := pulsePort (s.cfg.pwmRes / 2) }
      conf := { stepThresh := s.cfg.stepThreshReset, commMode := s.cfg.commModeReset, wdtInterval := s.cfg.wdtReset }
      safety := { enable := false, estop := false, wdtExpired := false, wdtCnt := 0#16 }
      parser := { recording := false, idx := 0, buf := [] }
      tx := [], inputs := s.inputs, issue := s.issue, orderCount := s.orderCount, result := .nothing }) ∧
  (∀ n : Nat, n < 2 ^ 17 → (pulsePort (n / 2)).toNat = n / 2) ∧
  (∀ cfg : Config, cfg.Legal → cfg.stepThreshReset = 500#16 ∧ cfg.commModeReset = .block ∧ cfg.wdtReset = 0#16) ∧
  (∀ a < 17, Memory.read [] a = 0#8) ∧
  (∀ s t : State, exec .reset s = .next t → outEn t = false ∧ estopOut t = false)

/-- CTRL_TICK (R451) is the four stages in order, each reading what the earlier ones wrote. -/
def Obligations.CtrlTickRunsTheFourStages : Prop :=
  ∀ (h : BitVec 3) (oc : Bool) (s : State), s.Admitted →
    exec (.ctrlTick h oc) s =
      execAll [.hallStage h, .speedStage, .ctrlStage, .synthStage]
        { s with ports := { s.ports with overcurrent := oc } } ∧
    ∃ t, exec (.ctrlTick h oc) s = .next t

/-- RX_BYTE (R460) is RX_PARSE with the sampled levels; both complete for every parser state. -/
def Obligations.RxByteParsesOneByte : Prop :=
  ∀ (b : Byte) (vbat ibus : Half) (s : State), s.Admitted →
    exec (.rxByte b vbat ibus) s =
      exec (.rxParse b) { s with ports := { s.ports with vbat := vbat, ibus := ibus } } ∧
    (∃ t, exec (.rxByte b vbat ibus) s = .next t) ∧ ∃ t, exec (.rxParse b) s = .next t

/-- WDT_TICK (R465): off or expired, nothing; else the counter goes down, and at 0 the watchdog expires (R466). -/
def Obligations.WdtTickCountsDownAndExpires : Prop :=
  ∀ s : State, s.Admitted →
    exec .wdtTick s =
      if s.conf.wdtInterval = 0#16 ∨ s.safety.wdtExpired = true ∨ s.safety.wdtCnt = 0#16 then .next s
      else if s.safety.wdtCnt = 1#16 then
        .next { s with
          safety := { s.safety with wdtCnt := 0#16, wdtExpired := true, enable := false }
          ctrl := { s.ctrl with
            mode := .openLoop, restartPending := false, setpoint := 0, lastSetpoint := 0, integral := 0, pTerm := 0
            iTerm := 0, fTerm := 0, pidOut := 0, stepCnt := 0, pwmInput := 0 } }
      else .next { s with safety := { s.safety with wdtCnt := BitVec.ofNat 16 (s.safety.wdtCnt.toNat - 1) } }

/-- An armed watchdog with n ticks left counts n - k after k ticks and has expired, once, after n or more (R465). -/
def Obligations.WatchdogExpiresAfterItsTicks : Prop :=
  ∀ s : State, s.Admitted → s.conf.wdtInterval ≠ 0#16 → s.safety.wdtExpired = false → s.safety.wdtCnt ≠ 0#16 →
    (∀ k < s.safety.wdtCnt.toNat, execAll (List.replicate k .wdtTick) s =
      .next { s with safety := { s.safety with wdtCnt := BitVec.ofNat 16 (s.safety.wdtCnt.toNat - k) } }) ∧
    (∀ k ≥ s.safety.wdtCnt.toNat, execAll (List.replicate k .wdtTick) s =
      exec .expire { s with safety := { s.safety with wdtCnt := 0#16 } })

/-! ### The Hall decoder -/

/-- HALL_DECODE (R200): the table's entry; NOFUNC for 000 and 111, and six different sectors for the other codes. -/
def Obligations.HallDecodeReadsTheTable : Prop :=
  ∀ (c : BitVec 3) (s : State), s.Admitted →
    let v : BitVec 3 → Nat := fun c => s.cfg.tables.hall.getD c.toNat 7
    exec (.hallDecode c) s = .next { s with result := .sector (v c) } ∧
    (c = 0b000#3 ∨ c = 0b111#3 → v c = 7) ∧
    (c ≠ 0b000#3 → c ≠ 0b111#3 → v c < 6) ∧
    (∀ c' : BitVec 3, v c < 6 → v c' = v c → c' = c)

/-- HALL_STAGE (R208): NOFUNC holds, the first valid code sets the sector, a later one moves it and counts ±1 steps. -/
def Obligations.HallStageFollowsItsPseudocode : Prop :=
  ∀ (c : BitVec 3) (s : State), s.Admitted →
    let v := s.cfg.tables.hall.getD c.toNat 7
    (6 ≤ v → exec (.hallStage c) s = .next { s with
      hall := { s.hall with transition := false, validTr := false, hallInvalid := true } }) ∧
    (∀ k : Fin 6, v = k.val → s.hall.sectorValid = false → exec (.hallStage c) s = .next { s with
      hall := { s.hall with
        sector := k, sectorValid := true, transition := false, validTr := false, hallInvalid := false } }) ∧
    (∀ k : Fin 6, v = k.val → s.hall.sectorValid = true →
      let d := (k.val + 6 - s.hall.sector.val) % 6
      exec (.hallStage c) s = .next { s with
        hall :=
          { sector := k, sectorValid := true
            hallDir := if d = 1 then .forward else if d = 5 then .reverse else s.hall.hallDir
            odo := if d = 1 then (s.hall.odo + 1 + 2 ^ 31) % 2 ^ 32 - 2 ^ 31
                   else if d = 5 then (s.hall.odo - 1 + 2 ^ 31) % 2 ^ 32 - 2 ^ 31 else s.hall.odo
            transition := decide (d ≠ 0), validTr := decide (d = 1 ∨ d = 5), hallInvalid := false } })

/-! ### Commutation -/

/-- BLOCK_COMMUTATE (R230, R231): the signs of the table's row; for pwm ≠ 0 exactly one phase is 0 and the others are
+pwm and -pwm; for pwm = 0 all are 0. -/
def Obligations.BlockCommutationDrivesTwoPhases : Prop :=
  ∀ (pwm : Half) (k : Fin 6) (s : State), s.Admitted →
    ∃ r : Signs, s.cfg.tables.block[k.val]? = some r ∧
      exec (.blockCommutate pwm k) s =
        .next { s with result := .phases (r.y * pwm.toInt) (r.b * pwm.toInt) (r.g * pwm.toInt) } ∧
      [r.y * pwm.toInt, r.b * pwm.toInt, r.g * pwm.toInt].Perm [0, pwm.toInt, -pwm.toInt]

/-- SINE_COMMUTATE (R232 to R235): table values at a, a + 120 and a + 240 mod 360, times m >> 3, divided by SINE_NORM. -/
def Obligations.SineCommutationFollowsItsPseudocode : Prop :=
  ∀ (m a : Half) (s : State), s.Admitted →
    let phase : Int → Int := fun x =>
      (s.cfg.sineLut.getD (x % 360).toNat 0 * (m.toInt / 8)).tdiv s.cfg.sineNorm
    exec (.sineCommutate m a) s =
      .next { s with result := .phases (phase a.toInt) (phase (a.toInt + 120)) (phase (a.toInt + 240)) }

/-- Block and sine drive agree in every sector (R236) for the default tables, with the condition that R232 puts on it: the
attenuated amplitude 866·(m >> 3) reaches SINE_NORM. That is every magnitude from 8 on for a SINE_NORM up to 866, and
from 16 on for the default 1000. Below the condition all phases are 0, and from 8 on the drive never reverses: one phase
is 0 and the other two are opposite (log 18). -/
def Obligations.SineSignsMatchTheBlockRow : Prop :=
  ∀ (cfg : Config) (m : Int) (k : Fin 6), cfg.sineLut = Tables.sineDefault → cfg.tables.block = Tables.blockDefault →
    cfg.phaseAdv = 0 → 1 ≤ cfg.sineNorm → 8 ≤ m →
    let p := sineCommutate cfg m (sectorAngle cfg k)
    (cfg.sineNorm ≤ 866 * (m / 8) → some ⟨p.y.sign, p.b.sign, p.g.sign⟩ = Tables.blockDefault[k.val]?) ∧
    (866 * (m / 8) < cfg.sineNorm → p = { y := 0, b := 0, g := 0 }) ∧
    ∃ x : Int, [p.y, p.b, p.g].Perm [0, x, -x]

/-- R236 as it is worded, from magnitude 8 on under the default SINE_NORM. EXPECTED TO FAIL at magnitudes 8 to 15, where
866 / 1000 is 0 (R232; log 18). -/
def Obligations.SineSignsMatchFromMagnitudeEight : Prop :=
  ∀ (m : Int) (k : Fin 6), 8 ≤ m →
    let p := sineCommutate Config.testProfile m (60 * k.val)
    some ⟨p.y.sign, p.b.sign, p.g.sign⟩ = Tables.blockDefault[k.val]?

/-- PULSE_CLAMP (R240, R241): half scale added, clamped to the duty margins. -/
def Obligations.PulseClampLeavesTheDutyMargin : Prop :=
  ∀ (x : Word32) (s : State), s.Admitted →
    let p := max 10 (min (x.toInt + (s.cfg.pwmRes : Int) / 2) (s.cfg.pwmRes - 10))
    exec (.pulseClamp x) s = .next { s with result := .pulse p } ∧ 10 ≤ p ∧ p ≤ s.cfg.pwmRes - 10

/-- SYNTH_STAGE (R242, R237): the waveform that mode, sectorValid and commMode select, and its clamped pulses. A pulse
port holds the clamped value wherever its 16 bits can, and a value within the duty margins always (R30, R87; log 12). -/
def Obligations.SynthStageSelectsTheWaveform : Prop :=
  ∀ s : State, s.Admitted → Within 1000 s.ctrl.pwmOut → 0 ≤ s.ctrl.angleY → s.ctrl.angleY ≤ 359 →
    let pulse : Int → Int := fun x => max 10 (min (x + (s.cfg.pwmRes : Int) / 2) (s.cfg.pwmRes - 10))
    ∃ y b g : Int,
      exec .synthStage s = .next { s with
        synth := { phaseY := y, phaseB := b, phaseG := g, pulseY := pulsePort (pulse y)
                   pulseB := pulsePort (pulse b), pulseG := pulsePort (pulse g) } } ∧
      (∀ x, (pulse x < 2 ^ 16 → ((pulsePort (pulse x)).toNat : Int) = pulse x) ∧
        10 ≤ ((pulsePort (pulse x)).toNat : Int) ∧ ((pulsePort (pulse x)).toNat : Int) ≤ s.cfg.pwmRes - 10) ∧
      (s.ctrl.mode = .stepper →
        exec (.sineCommutate (BitVec.ofInt 16 s.ctrl.pwmOut) (BitVec.ofInt 16 s.ctrl.angleY)) s =
          .next { s with result := .phases y b g }) ∧
      (s.ctrl.mode ≠ .stepper → s.hall.sectorValid = false → y = 0 ∧ b = 0 ∧ g = 0) ∧
      (s.ctrl.mode ≠ .stepper → s.hall.sectorValid = true → s.conf.commMode = .block →
        exec (.blockCommutate (BitVec.ofInt 16 s.ctrl.pwmOut) s.hall.sector) s =
          .next { s with result := .phases y b g }) ∧
      (s.ctrl.mode ≠ .stepper → s.hall.sectorValid = true → s.conf.commMode = .sine →
        exec (.sineCommutate (BitVec.ofInt 16 s.ctrl.pwmOut)
          (BitVec.ofInt 16 ((60 * (s.hall.sector.val : Int) + s.cfg.phaseAdv) % 360))) s =
          .next { s with result := .phases y b g })

/-! ### The speed estimator -/

/-- SPEED_UPDATE (R275): the exponential low-pass step; a raw speed within SPEED_TICKS_FACTOR keeps the register's range
and bounds the filtered speed. -/
def Obligations.SpeedUpdateFiltersTheRawSpeed : Prop :=
  ∀ (raw : Word32) (s : State), s.Admitted →
    let reg := s.speed.speedReg + raw.toInt - s.speed.speedReg / 2 ^ s.cfg.speedShift
    exec (.speedUpdate raw) s =
      .next { s with speed := { s.speed with speedReg := reg, speedFilt := reg / 2 ^ s.cfg.speedShift } } ∧
    (Within s.cfg.speedTicksFactor raw.toInt →
      FilterRange s.cfg.speedTicksFactor s.cfg.speedShift s.speed.speedReg →
      FilterRange s.cfg.speedTicksFactor s.cfg.speedShift reg ∧
        Within s.cfg.speedTicksFactor (reg / 2 ^ s.cfg.speedShift))

/-- SPEED_STAGE (R279): the count, the latch on a transition, the stall at the ceiling, else the filter step on the raw
speed of the latched period. -/
def Obligations.SpeedStageFollowsItsPseudocode : Prop :=
  ∀ s : State, s.Admitted → 1 ≤ s.speed.phasePeriod →
    let cnt := min (s.speed.phaseCnt + 1) s.cfg.maxPhasePeriod
    let raw : Nat → Int := fun period =>
      if s.cfg.maxPhasePeriod ≤ period then 0
      else ((s.cfg.speedTicksFactor / period : Nat) : Int) * s.hall.hallDir.toInt
    let reg : Nat → Int := fun period =>
      s.speed.speedReg + raw period - s.speed.speedReg / 2 ^ s.cfg.speedShift
    exec .speedStage s = .next { s with
      speed :=
        if s.hall.transition = true then
          { phaseCnt := 0, phasePeriod := cnt, speedReg := reg cnt, speedFilt := reg cnt / 2 ^ s.cfg.speedShift }
        else if cnt = s.cfg.maxPhasePeriod then
          { phaseCnt := cnt, phasePeriod := s.cfg.maxPhasePeriod, speedReg := 0, speedFilt := 0 }
        else
          { phaseCnt := cnt, phasePeriod := s.speed.phasePeriod, speedReg := reg s.speed.phasePeriod
            speedFilt := reg s.speed.phasePeriod / 2 ^ s.cfg.speedShift } }

/-- Stall (R272, R277): MAX_PHASE_PERIOD or more ticks without a change of the held sector report speed exactly 0, the
codes being any mixture of invalid ones (R202, R210) and the held sector's. -/
def Obligations.StandstillReportsSpeedZero : Prop :=
  ∀ (ticks : List (BitVec 3 × Bool)) (s : State), s.Admitted →
    (∀ x ∈ ticks, s.cfg.tables.hall.getD x.1.toNat 7 = 7 ∨
      (s.hall.sectorValid = true ∧ s.cfg.tables.hall.getD x.1.toNat 7 = s.hall.sector.val)) →
    s.cfg.maxPhasePeriod ≤ ticks.length →
    ∃ t, execAll (ticks.map (fun x => .ctrlTick x.1 x.2)) s = .next t ∧ t.speed.speedFilt = 0 ∧ t.speed.speedReg = 0 ∧
      t.speed.phasePeriod = s.cfg.maxPhasePeriod ∧ t.hall.sector = s.hall.sector ∧ t.hall.odo = s.hall.odo

/-! ### The speed controller -/

/-- SetPower (R301): open loop, every PIDF and stepper register cleared, the power clamped; angle and filter kept. -/
def Obligations.SetPowerForcesOpenLoop : Prop :=
  ∀ (v : Half) (s : State), s.Admitted →
    exec (.setPower v) s = .next { s with
      ctrl := { s.ctrl with
        mode := .openLoop, restartPending := false, setpoint := 0, lastSetpoint := 0, integral := 0, pTerm := 0
        iTerm := 0, fTerm := 0, pidOut := 0, stepCnt := 0, pwmInput := max (-1000) (min v.toInt 1000) } }

/-- SetSpeed (R302 to R308). -/
def Obligations.SetSpeedChoosesTheMode : Prop :=
  ∀ (v : Half) (s : State), s.Admitted →
    let w := max (-5000) (min v.toInt 5000)
    exec (.setSpeed v) s = .next { s with
      ctrl :=
        if w = 0 then
          { s.ctrl with
            setpoint := 0, mode := .openLoop, pwmInput := 0, integral := 0, restartPending := false, stepCnt := 0 }
        else if s.conf.stepThresh.toNat < w.natAbs then
          { s.ctrl with setpoint := w, mode := .running, restartPending := false }
        else if s.ctrl.mode = .running then { s.ctrl with setpoint := w, restartPending := true }
        else if s.ctrl.mode = .openLoop then
          { s.ctrl with
            setpoint := w, mode := .stepper, stepCnt := 0
            angleY := if s.hall.sectorValid = true then
                (60 * (s.hall.sector.val : Int) + s.cfg.phaseAdv) % 360 else s.ctrl.angleY }
        else { s.ctrl with setpoint := w } }

/-- STEPPER_STEP (R310): the count, and one degree in the setpoint's direction at the period. The setpoint is nonzero in
STEPPER (R310, R331). -/
def Obligations.StepperStepAdvancesTheAngle : Prop :=
  ∀ s : State, s.Admitted → s.ctrl.setpoint ≠ 0 →
    let cnt := min (s.ctrl.stepCnt + 1) 65535
    exec .stepperStep s = .next { s with
      ctrl :=
        if max 1 (s.cfg.stepperK / s.ctrl.setpoint.natAbs) ≤ cnt then
          { s.ctrl with stepCnt := 0, angleY := (s.ctrl.angleY + s.ctrl.setpoint.sign) % 360 }
        else { s.ctrl with stepCnt := cnt } }

/-- PIDF_EVAL (R320 to R326). -/
def Obligations.PidfEvalFollowsItsPseudocode : Prop :=
  ∀ s : State, s.Admitted →
    let r := s.ctrl
    let err := r.setpoint - s.speed.speedFilt
    let ff := (r.setpoint * s.cfg.kf + r.setpoint.sign * s.cfg.kfo) / 32768
    let p := err * s.cfg.kp / 32768
    let integral :=
      if r.setpoint.natAbs < s.cfg.minSpeed ∨ r.setpoint * r.lastSetpoint < 0 then 0
      else max (-(s.cfg.iLimit : Int)) (min (r.integral + err * s.cfg.ki) s.cfg.iLimit)
    let i := integral / 32768
    exec .pidfEval s = .next { s with
      ctrl := { r with
        integral := integral, lastSetpoint := r.setpoint, pTerm := p, iTerm := i, fTerm := ff
        pidOut := max (-1000) (min (ff + p + i) 1000) } }

/-- PWM_FILTER (R327); an input within ±1000 keeps the register's range and |pwmOut| ≤ 1000. -/
def Obligations.PwmFilterFollowsItsPseudocode : Prop :=
  ∀ (x : Half) (s : State), s.Admitted →
    let reg := s.ctrl.pwmReg + x.toInt - s.ctrl.pwmReg / 2 ^ s.cfg.pwmShift
    exec (.pwmFilter x) s =
      .next { s with ctrl := { s.ctrl with pwmReg := reg, pwmOut := reg / 2 ^ s.cfg.pwmShift } } ∧
    (Within 1000 x.toInt → FilterRange 1000 s.cfg.pwmShift s.ctrl.pwmReg →
      FilterRange 1000 s.cfg.pwmShift reg ∧ Within 1000 (reg / 2 ^ s.cfg.pwmShift))

/-- CTRL_STAGE (R330): phase restart, then STEPPER_STEP in STEPPER, PIDF_EVAL outside OPEN, and PWM_FILTER on the PIDF
output or the open-loop input. -/
def Obligations.CtrlStageRunsItsStepsInOrder : Prop :=
  ∀ s : State, s.Admitted → Within 1000 s.ctrl.pwmInput →
    let s1 : State :=
      if s.ctrl.restartPending = true ∧ s.hall.transition = true ∧ s.ctrl.mode = .running then
        { s with ctrl := { s.ctrl with
            angleY := (60 * (s.hall.sector.val : Int) + s.cfg.phaseAdv) % 360, mode := .stepper, stepCnt := 0
            restartPending := false } }
      else s
    ∃ u v t : State,
      execAll (if s1.ctrl.mode = .stepper then [.stepperStep] else []) s1 = .next u ∧
      execAll (if s1.ctrl.mode = .openLoop then [] else [.pidfEval]) u = .next v ∧
      exec (.pwmFilter (BitVec.ofInt 16 (if s1.ctrl.mode = .openLoop then v.ctrl.pwmInput else v.ctrl.pidOut))) v =
        .next t ∧
      exec .ctrlStage s = .next t

/-- What changes `mode` or `restartPending` (R309): the setters and what calls them, a phase restart, a watchdog expiry
and RESET; no other operation. -/
def Obligations.OnlyTheModeTableChangesTheMode : Prop :=
  ∀ (i : Instr) (s t : State), exec i s = .next t →
    t.ctrl.mode ≠ s.ctrl.mode ∨ t.ctrl.restartPending ≠ s.ctrl.restartPending →
    match i with
    | .reset | .setPower _ | .setSpeed _ | .pow _ | .spe _ | .xxx _ | .expire => True
    | .dispatch f => ∃ n, s.cfg.cmdCode.lookup f.cid = some n ∧ (n = .pow ∨ n = .spe ∨ n = .xxx)
    | .rxParse b | .rxByte b _ _ =>
      ∃ p f n, parseByte s.cfg b s.parser = (p, some f) ∧ s.cfg.cmdCode.lookup f.cid = some n ∧
        (n = .pow ∨ n = .spe ∨ n = .xxx)
    | .ctrlTick _ _ | .ctrlStage =>
      s.ctrl.restartPending = true ∧ s.ctrl.mode = .running ∧ t.hall.transition = true ∧ t.ctrl.mode = .stepper ∧
        t.ctrl.restartPending = false
    | .wdtTick =>
      s.safety.wdtExpired = false ∧ t.safety.wdtExpired = true ∧ t.ctrl.mode = .openLoop ∧
        t.ctrl.restartPending = false
    | _ => False

/-! ### The dispatcher -/

/-- DISPATCH (R400, R410): a filtered frame does nothing; any other reloads the watchdog, runs the command that cmdId and
payload select, and then, unless rspId is NOR, the reply. -/
def Obligations.DispatchRunsReloadCommandAndReply : Prop :=
  ∀ (f : Frame) (s : State), s.Admitted →
    (∀ a, s.cfg.addrFilter = some a → f.dest ≠ a → exec (.dispatch f) s = .next s) ∧
    (s.cfg.addrFilter = none ∨ s.cfg.addrFilter = some f.dest →
      exec (.dispatch f) s =
        execAll (decodeCommand s.cfg.cmdCode f.cid f.payload ::
            (if f.rid = 0#8 then [] else [.reply f.seq f.cid f.rid]))
          { s with safety := { s.safety with wdtCnt := s.conf.wdtInterval } } ∧
      ∃ t, exec (.dispatch f) s = .next t)

/-- ENA (R401): enable set, wdtExpired cleared, nothing else; in a frame, the entry reload comes with it. -/
def Obligations.EnaEnablesAndRearms : Prop :=
  (∀ (pl : List Byte) (s : State), s.Admitted →
    exec (.ena pl) s = .next { s with safety := { s.safety with enable := true, wdtExpired := false } }) ∧
  (∀ (f : Frame) (s : State), s.Admitted → s.cfg.addrFilter = none → f.cid = 3#8 → f.rid = 0#8 →
    exec (.dispatch f) s = .next { s with
      safety := { s.safety with enable := true, wdtExpired := false, wdtCnt := s.conf.wdtInterval } })

/-- DIS (R402) clears `enable` only; RES (R405) clears `odo` only. -/
def Obligations.DisAndResClearOneRegister : Prop :=
  ∀ (pl : List Byte) (s : State), s.Admitted →
    exec (.dis pl) s = .next { s with safety := { s.safety with enable := false } } ∧
    exec (.res pl) s = .next { s with hall := { s.hall with odo := 0 } }

/-- POW (R403) and SPE (R407): the little-endian pair goes to SetPower or SetSpeed; a shorter payload has no effect. -/
def Obligations.PowAndSpeCallTheSetters : Prop :=
  ∀ s : State, s.Admitted →
    (∀ (b0 b1 : Byte) (rest : List Byte),
      exec (.pow (b0 :: b1 :: rest)) s = exec (.setPower (b1 ++ b0)) s ∧
      exec (.spe (b0 :: b1 :: rest)) s = exec (.setSpeed (b1 ++ b0)) s ∧
      (∃ t, exec (.pow (b0 :: b1 :: rest)) s = .next t) ∧ ∃ t, exec (.spe (b0 :: b1 :: rest)) s = .next t) ∧
    (∀ pl : List Byte, pl.length < 2 → exec (.pow pl) s = .next s ∧ exec (.spe pl) s = .next s)

/-- DOG (R404): interval and counter take the little-endian pair; a shorter payload has no effect. -/
def Obligations.DogLoadsTheWatchdog : Prop :=
  ∀ s : State, s.Admitted →
    (∀ (b0 b1 : Byte) (rest : List Byte), exec (.dog (b0 :: b1 :: rest)) s = .next { s with
      conf := { s.conf with wdtInterval := b1 ++ b0 }, safety := { s.safety with wdtCnt := b1 ++ b0 } }) ∧
    (∀ pl : List Byte, pl.length < 2 → exec (.dog pl) s = .next s)

/-- MOD (R406): waveform and threshold; a shorter payload or a first byte above 1 has no effect. -/
def Obligations.ModSetsWaveformAndThreshold : Prop :=
  ∀ s : State, s.Admitted →
    (∀ (m b0 b1 : Byte) (rest : List Byte), exec (.mod (m :: b0 :: b1 :: rest)) s = .next
      (if m.toNat ≤ 1 then
        { s with conf := { s.conf with
            commMode := if m = 0#8 then .block else .sine, stepThresh := b1 ++ b0 } }
      else s)) ∧
    (∀ pl : List Byte, pl.length < 3 → exec (.mod pl) s = .next s)

/-- XXX (R408): SetPower(0), enable cleared, estop latched. -/
def Obligations.XxxLatchesTheEmergencyStop : Prop :=
  ∀ (pl : List Byte) (s : State), s.Admitted →
    exec (.xxx pl) s = .next { s with
      ctrl := { s.ctrl with
        mode := .openLoop, restartPending := false, setpoint := 0, lastSetpoint := 0, integral := 0, pTerm := 0
        iTerm := 0, fTerm := 0, pidOut := 0, stepCnt := 0, pwmInput := 0 }
      safety := { s.safety with enable := false, estop := true } }

/-- EXPIRE (R466): wdtExpired latched, enable cleared, SetPower(0). -/
def Obligations.ExpireDisablesAndForcesOpenLoop : Prop :=
  ∀ s : State, s.Admitted →
    exec .expire s = .next { s with
      ctrl := { s.ctrl with
        mode := .openLoop, restartPending := false, setpoint := 0, lastSetpoint := 0, integral := 0, pTerm := 0
        iTerm := 0, fTerm := 0, pidOut := 0, stepCnt := 0, pwmInput := 0 }
      safety := { s.safety with wdtExpired := true, enable := false } }

/-- UNKNOWN_CMD (R409): in a frame, no effect beyond the watchdog reload and the reply that is asked for, for an id outside
CMD_CODE and for a known id whose payload does not meet its condition. -/
def Obligations.UnknownCommandOnlyReloads : Prop :=
  (∀ (cid : Byte) (pl : List Byte) (s : State), s.Admitted → exec (.unknownCmd cid pl) s = .next s) ∧
  (∀ (f : Frame) (s : State), s.Admitted → s.cfg.addrFilter = none →
    s.cfg.cmdCode.select f.cid f.payload = none →
    exec (.dispatch f) s = execAll (if f.rid = 0#8 then [] else [.reply f.seq f.cid f.rid])
      { s with safety := { s.safety with wdtCnt := s.conf.wdtInterval } })

/-! ### The replies -/

/-- REPLY (R430): for a rspId other than NOR exactly one frame is appended to tx, with the payload that the rspId selects
(R421 to R429, which the statements about the responses spell out), at most 9 bytes; it is the response's operation; and
the frame's layout. -/
def Obligations.ReplyBuildsOneFrame : Prop :=
  (∀ (seq : BitVec 4) (cid rid : Byte) (s : State), s.Admitted →
    (rid ≠ 0#8 →
      exec (.reply seq cid rid) s = .next { s with
        tx := s.tx ++ replyFrame s.cfg seq cid rid (rspPayload (s.cfg.rspCode.lookup rid) s) } ∧
      (rspPayload (s.cfg.rspCode.lookup rid) s).length ≤ 9 ∧
      exec (.reply seq cid rid) s = exec (decodeResponse s.cfg.rspCode rid seq cid) s) ∧
    ∃ t, exec (.reply seq cid rid) s = .next t) ∧
  (∀ (cfg : Config) (seq : BitVec 4) (cid rid : Byte) (pl : List Byte),
    let h := [0x2F#8, BitVec.ofNat 8 pl.length, seq ++ cfg.replyDest, cid, rid] ++ pl
    replyFrame cfg seq cid rid pl =
      h ++ [(crc16 h).extractLsb' 0 8, (crc16 h).extractLsb' 8 8, 0x0A#8])

/-- The 2-byte replies (R422 to R426), low byte first. -/
def Obligations.TwoByteRepliesReadTheirRegister : Prop :=
  ∀ (seq : BitVec 4) (cid : Byte) (s : State), s.Admitted →
    let sent : Byte → List Byte → Out := fun rid pl =>
      .next { s with tx := s.tx ++ replyFrame s.cfg seq cid rid pl }
    exec (.rspSpeed seq cid) s = sent s.cfg.rspCode.speed
        [BitVec.ofInt 8 s.speed.speedFilt, BitVec.ofInt 8 (s.speed.speedFilt / 256)] ∧
    exec (.rspPwm seq cid) s = sent s.cfg.rspCode.pwm
        [BitVec.ofInt 8 s.ctrl.pwmOut, BitVec.ofInt 8 (s.ctrl.pwmOut / 256)] ∧
    exec (.rspBattery seq cid) s = sent s.cfg.rspCode.battery
        [s.ports.vbat.extractLsb' 0 8, s.ports.vbat.extractLsb' 8 8] ∧
    exec (.rspCurrent seq cid) s = sent s.cfg.rspCode.current
        [s.ports.ibus.extractLsb' 0 8, s.ports.ibus.extractLsb' 8 8] ∧
    exec (.rspWatchdog seq cid) s = sent s.cfg.rspCode.watchdog
        [s.conf.wdtInterval.extractLsb' 0 8, s.conf.wdtInterval.extractLsb' 8 8]

/-- POSITION (R421), odo · DIST_PER_CYCLE modulo 2^32, and PIDF (R427), the low 16 bits of the three terms. -/
def Obligations.PositionAndPidfReplies : Prop :=
  ∀ (seq : BitVec 4) (cid : Byte) (s : State), s.Admitted →
    let byte : Int → Nat → Byte := fun v k => BitVec.ofInt 8 (v / 256 ^ k)
    let pos := s.hall.odo * s.cfg.distPerCycle
    exec (.rspPosition seq cid) s = .next { s with
      tx := s.tx ++ replyFrame s.cfg seq cid s.cfg.rspCode.position [byte pos 0, byte pos 1, byte pos 2, byte pos 3] } ∧
    exec (.rspPidf seq cid) s = .next { s with
      tx := s.tx ++ replyFrame s.cfg seq cid s.cfg.rspCode.pidf
        [byte s.ctrl.pTerm 0, byte s.ctrl.pTerm 1, byte s.ctrl.iTerm 0, byte s.ctrl.iTerm 1, byte s.ctrl.fTerm 0,
          byte s.ctrl.fTerm 1] }

/-- TELEMETRY (R428): speed, position, pwm and the status byte of R137, bit by bit. -/
def Obligations.TelemetryReplyPacksTheStatusByte : Prop :=
  ∀ (seq : BitVec 4) (cid : Byte) (s : State), s.Admitted →
    let byte : Int → Nat → Byte := fun v k => BitVec.ofInt 8 (v / 256 ^ k)
    let pos := s.hall.odo * s.cfg.distPerCycle
    ∃ st : Byte,
      exec (.rspTelemetry seq cid) s = .next { s with
        tx := s.tx ++ replyFrame s.cfg seq cid s.cfg.rspCode.telemetry
          [byte s.speed.speedFilt 0, byte s.speed.speedFilt 1, byte pos 0, byte pos 1, byte pos 2, byte pos 3,
            byte s.ctrl.pwmOut 0, byte s.ctrl.pwmOut 1, st] } ∧
      st.getLsbD 7 = s.hall.sectorValid ∧ st.getLsbD 6 = s.ctrl.restartPending ∧
      st.getLsbD 5 = decide (s.ctrl.mode = .running) ∧ st.getLsbD 4 = decide (s.ctrl.mode = .stepper) ∧
      st.getLsbD 3 = s.safety.wdtExpired ∧ st.getLsbD 2 = s.ports.overcurrent ∧ st.getLsbD 1 = s.safety.estop ∧
      st.getLsbD 0 = s.safety.enable

/-- NOR sends nothing (R420, R432); an unknown nonzero rspId is answered with an empty payload (R429). REPLY with rspId 0,
which DISPATCH never asks for (R400), sends an empty payload: the model's choice (log 20). -/
def Obligations.NorIsSilentAndUnknownResponseIsEmpty : Prop :=
  ∀ (seq : BitVec 4) (cid rid : Byte) (s : State), s.Admitted →
    exec (.rspNor seq cid) s = .next s ∧
    exec (.reply seq cid 0#8) s = .next { s with tx := s.tx ++ replyFrame s.cfg seq cid 0#8 [] } ∧
    exec (.rspUnknown seq cid rid) s = .next { s with tx := s.tx ++ replyFrame s.cfg seq cid rid [] } ∧
    (∀ f : Frame, s.cfg.addrFilter = none → f.rid = 0#8 → ∃ t, exec (.dispatch f) s = .next t ∧ t.tx = s.tx)

/-! ### Rules of the whole machine -/

/-- Write access by transaction (R42). -/
def Obligations.WriteAccessByTransaction : Prop :=
  (∀ (h : BitVec 3) (oc : Bool) (s t : State), exec (.ctrlTick h oc) s = .next t →
    t = { s with
      ports := { s.ports with overcurrent := oc }, hall := t.hall, speed := t.speed, synth := t.synth
      ctrl := { t.ctrl with pwmInput := s.ctrl.pwmInput, setpoint := s.ctrl.setpoint } }) ∧
  (∀ (b : Byte) (vbat ibus : Half) (s t : State), exec (.rxByte b vbat ibus) s = .next t →
    t = { s with
      ports := { s.ports with vbat := vbat, ibus := ibus }, parser := t.parser, safety := t.safety, conf := t.conf
      hall := { s.hall with odo := t.hall.odo }, tx := t.tx
      ctrl := { t.ctrl with pwmReg := s.ctrl.pwmReg, pwmOut := s.ctrl.pwmOut } } ∧
    (t.hall.odo = s.hall.odo ∨ t.hall.odo = 0)) ∧
  (∀ s t : State, exec .wdtTick s = .next t →
    t = { s with safety := { t.safety with estop := s.safety.estop }, ctrl := t.ctrl } ∧
    (t.safety.wdtExpired = s.safety.wdtExpired → t.safety.enable = s.safety.enable ∧ t.ctrl = s.ctrl))

/-- The output gate (R31, R503, R506). out_en is enable and not estop and not overcurrent, in every state, so it is 1 only
when the three allow it. Overcurrent gates it as a level: a sample that only sets levels, and CTRL_TICK, give out_en by
the new level at once, the safety flags are untouched, and two ticks that differ in the level differ in nothing but the
port. The estop latch (R505): no operation but RESET clears it, and while it is set out_en is 0. -/
def Obligations.OutputIsGatedAndEstopHoldsUntilReset : Prop :=
  (∀ s : State, (outEn s = true ↔
    s.safety.enable = true ∧ s.safety.estop = false ∧ s.ports.overcurrent = false) ∧ s.Safe) ∧
  (∀ (s : State) (p : Ports) (rest : List Ports), s.issue = [] → idlePorts s.ports = true → s.inputs = p :: rest →
    idlePorts p = true → ∃ t, step s = .next t ∧ t = { s with ports := p, inputs := rest } ∧
      (outEn t = true ↔ s.safety.enable = true ∧ s.safety.estop = false ∧ p.overcurrent = false)) ∧
  (∀ (h : BitVec 3) (oc : Bool) (s : State), s.Admitted → ∃ t, exec (.ctrlTick h oc) s = .next t ∧
    t.safety = s.safety ∧
    (outEn t = true ↔ s.safety.enable = true ∧ s.safety.estop = false ∧ oc = false) ∧
    ∀ oc', exec (.ctrlTick h oc') s = .next { t with ports := { t.ports with overcurrent := oc' } }) ∧
  (∀ (i : Instr) (s t : State), i ≠ .reset → exec i s = .next t → s.safety.estop = true →
    t.safety.estop = true ∧ outEn t = false)

/-- Only ENA, by itself or in a dispatched frame, raises `enable`, and only it and RESET clear `wdtExpired`: a late
command cannot undo a watchdog expiry (R467, R504, R506). -/
def Obligations.OnlyEnaRestoresTheOutput : Prop :=
  ∀ (i : Instr) (s t : State), exec i s = .next t → i ≠ .reset →
    (s.safety.enable = false ∧ t.safety.enable = true) ∨ (s.safety.wdtExpired = true ∧ t.safety.wdtExpired = false) →
    (∃ pl, i = .ena pl) ∨
    ∃ f : Frame, f.cid = s.cfg.cmdCode.ena ∧
      (i = .dispatch f ∨ ∃ b p, parseByte s.cfg b s.parser = (p, some f) ∧
        (i = .rxParse b ∨ ∃ vbat ibus, i = .rxByte b vbat ibus))

/-- No operation writes the build parameters or the model's input fields, and all but RESET only append to `tx` (R8,
R44, R81). -/
def Obligations.ParametersAreFixedAndTxOnlyGrows : Prop :=
  ∀ (i : Instr) (s t : State), exec i s = .next t →
    t.cfg = s.cfg ∧ t.inputs = s.inputs ∧ t.issue = s.issue ∧ t.orderCount = s.orderCount ∧
    (i ≠ .reset → ∃ bytes, t.tx = s.tx ++ bytes)
end

