-- ==== Sys2Proof/Laws/Arith.lean ====
section
/-! SUPPORT. The arithmetic primitives of 00_scope.md R13 and the exponential low-pass filter that the speed estimator
and the PWM filter share (42_speed_estimator.md R275, 43_speed_controller.md R327). -/

namespace Sys2Proof.Machine

theorem tdiv_of_ne_zero {a b : Int} (h : b ≠ 0) : tdiv a b = a.tdiv b := by simp [tdiv, h]

/-- `asr` is the floor of v / 2^n (R13). -/
theorem asr_bounds (v : Int) (n : Nat) : asr v n * 2 ^ n ≤ v ∧ v < asr v n * 2 ^ n + 2 ^ n := by
  have hp : (0 : Int) < 2 ^ n := by positivity
  simp only [asr]
  constructor
  · exact Int.ediv_mul_le v (by omega)
  · have := Int.lt_ediv_add_one_mul_self v hp
    linarith

@[simp] theorem asr_zero (v : Int) : asr v 0 = v := by simp [asr]

theorem clamp_within {lo hi : Int} (h : lo ≤ hi) (v : Int) : lo ≤ clamp v lo hi ∧ clamp v lo hi ≤ hi := by
  simp only [clamp]
  split
  · omega
  · split <;> omega

/-- A value within the limits is not clamped. -/
theorem clamp_of_within {v lo hi : Int} (h1 : lo ≤ v) (h2 : v ≤ hi) : clamp v lo hi = v := by
  simp only [clamp]
  split
  · omega
  · split <;> omega

/-- `clamp` as the lattice operations write it. -/
theorem clamp_eq_max_min {lo hi : Int} (h : lo ≤ hi) (v : Int) : clamp v lo hi = max lo (min v hi) := by
  simp only [clamp]
  split <;> [skip; split] <;> omega

/-- `sgn` is the library's sign. -/
theorem sgn_eq_sign (v : Int) : sgn v = v.sign := by
  rcases lt_trichotomy v 0 with h | h | h
  · rw [Int.sign_eq_neg_one_of_neg h, sgn, if_neg (by omega), if_pos h]
  · subst h; rfl
  · rw [Int.sign_eq_one_of_pos h, sgn, if_pos h]

/-- `wrap32` as an Euclidean remainder. -/
theorem wrap32_eq_emod (v : Int) : wrap32 v = (v + 2 ^ 31) % 2 ^ 32 - 2 ^ 31 := by
  simp only [wrap32, lo32, BitVec.toInt_ofInt, Int.bmod_def]
  omega

theorem sgn_cases (v : Int) : (0 < v ∧ sgn v = 1) ∨ (v < 0 ∧ sgn v = -1) ∨ (v = 0 ∧ sgn v = 0) := by
  simp only [sgn]
  split
  · exact .inl ⟨‹_›, rfl⟩
  · split
    · exact .inr (.inl ⟨‹_›, rfl⟩)
    · exact .inr (.inr ⟨by omega, rfl⟩)

theorem wrap32_range (v : Int) : InInt32 (wrap32 v) := by
  simp only [wrap32, InInt32]
  have h1 := BitVec.toInt_lt (x := lo32 v)
  have h2 := BitVec.le_toInt (lo32 v)
  omega

/-- `wrap32` keeps a value of int32 (R12). -/
theorem wrap32_of_int32 {v : Int} (h : InInt32 v) : wrap32 v = v := by
  simp only [InInt32] at h
  simp only [wrap32, lo32, BitVec.toInt_ofInt]
  rw [Int.bmod_eq_of_le] <;> omega

/-- A 16-bit pulse port holds every compare value that fits it (R30, R87). -/
theorem pulsePort_of_lt {p : Int} (h0 : 0 ≤ p) (h : p < 2 ^ 16) : ((pulsePort p).toNat : Int) = p := by
  rw [pulsePort, if_pos h, BitVec.toNat_ofInt]
  omega

/-- A pulse port holds a value from PWM_MARGIN on, and none above the compare value (R30, log 12). -/
theorem pulsePort_range {p : Int} (h : 10 ≤ p) : 10 ≤ ((pulsePort p).toNat : Int) ∧ ((pulsePort p).toNat : Int) ≤ p := by
  by_cases hp : p < 2 ^ 16
  · rw [pulsePort_of_lt (by omega) hp]
    omega
  · have := (Config.widePulse p).isLt
    rw [pulsePort, if_neg hp, BitVec.toNat_ofNat, Nat.mod_eq_of_lt (by omega)]
    omega

/-- The filter step keeps R275's range for every input within ±v. -/
theorem filter_keeps_range {v x reg : Int} {n : Nat} (hx : Within v x) (h : FilterRange v n reg) :
    FilterRange v n (reg + x - asr reg n) := by
  obtain ⟨hx1, hx2⟩ := hx
  obtain ⟨h1, h2⟩ := h
  obtain ⟨b1, b2⟩ := asr_bounds reg n
  have hp : (1 : Int) ≤ 2 ^ n := one_le_pow₀ (by norm_num)
  set p : Int := 2 ^ n with hpd
  set q : Int := asr reg n
  constructor
  · by_cases hq : q ≤ -v
    · nlinarith [mul_le_mul_of_nonneg_right hq (by omega : (0 : Int) ≤ p)]
    · nlinarith [mul_le_mul_of_nonneg_right (show -v + 1 ≤ q by omega) (by omega : (0 : Int) ≤ p - 1)]
  · by_cases hq : v ≤ q
    · nlinarith [mul_le_mul_of_nonneg_right hq (by omega : (0 : Int) ≤ p)]
    · nlinarith [mul_le_mul_of_nonneg_right (show q ≤ v - 1 by omega) (by omega : (0 : Int) ≤ p - 1)]

/-- A register in R275's range gives an output within ±v (R280, R327). -/
theorem filter_output {v reg : Int} {n : Nat} (h : FilterRange v n reg) : Within v (asr reg n) := by
  obtain ⟨h1, h2⟩ := h
  obtain ⟨b1, b2⟩ := asr_bounds reg n
  have hp : (0 : Int) < 2 ^ n := by positivity
  constructor
  · by_contra hc
    nlinarith [mul_le_mul_of_nonneg_right (show asr reg n + 1 ≤ -v by omega) hp.le]
  · by_contra hc
    nlinarith [mul_le_mul_of_nonneg_right (show v + 1 ≤ asr reg n by omega) hp.le]

/-- The two bytes of a pattern are its low and its high byte (R83). -/
@[simp] theorem half_bytes (h : Half) : half (h.extractLsb' 0 8) (h.extractLsb' 8 8) = h := by
  apply BitVec.eq_of_getLsbD_eq
  intro i hi
  simp only [half, BitVec.getLsbD_append, BitVec.getLsbD_extractLsb']
  by_cases h1 : i < 8
  · simp [h1]
  · simp [h1, show i - 8 < 8 by omega, show 8 + (i - 8) = i by omega]

@[simp] theorem word_bytes (w : Word32) :
    word (w.extractLsb' 0 8) (w.extractLsb' 8 8) (w.extractLsb' 16 8) (w.extractLsb' 24 8) = w := by
  apply BitVec.eq_of_getLsbD_eq
  intro i hi
  simp only [word, BitVec.getLsbD_append, BitVec.getLsbD_extractLsb']
  by_cases h1 : i < 8
  · simp [h1]
  · by_cases h2 : i < 16
    · simp [h1, show i - 8 < 8 by omega, show 8 + (i - 8) = i by omega]
    · by_cases h3 : i < 24
      · simp [h1, show ¬ i - 8 < 8 by omega, show i - 8 - 8 < 8 by omega, show 16 + (i - 8 - 8) = i by omega]
      · simp [h1, show ¬ i - 8 < 8 by omega, show ¬ i - 8 - 8 < 8 by omega, show i - 8 - 8 - 8 < 8 by omega,
          show 24 + (i - 8 - 8 - 8) = i by omega]

end Sys2Proof.Machine
end

