-- ==== Sys2Proof/Laws/State.lean ====
section
/-! SUPPORT. One lemma per field of State per update, so that no proof unfolds a record update: what each update writes
and what it leaves. -/

namespace Sys2Proof.Machine

/-! ### hallStage -/

@[simp] theorem hallStage_cfg (c : BitVec 3) (s : State) : (hallStage c s).cfg = s.cfg := rfl
@[simp] theorem hallStage_booted (c : BitVec 3) (s : State) : (hallStage c s).booted = s.booted := rfl
@[simp] theorem hallStage_ports (c : BitVec 3) (s : State) : (hallStage c s).ports = s.ports := rfl
@[simp] theorem hallStage_hall (c : BitVec 3) (s : State) : (hallStage c s).hall = hallStageRegs s.cfg c s.hall := rfl
@[simp] theorem hallStage_speed (c : BitVec 3) (s : State) : (hallStage c s).speed = s.speed := rfl
@[simp] theorem hallStage_ctrl (c : BitVec 3) (s : State) : (hallStage c s).ctrl = s.ctrl := rfl
@[simp] theorem hallStage_synth (c : BitVec 3) (s : State) : (hallStage c s).synth = s.synth := rfl
@[simp] theorem hallStage_conf (c : BitVec 3) (s : State) : (hallStage c s).conf = s.conf := rfl
@[simp] theorem hallStage_safety (c : BitVec 3) (s : State) : (hallStage c s).safety = s.safety := rfl
@[simp] theorem hallStage_parser (c : BitVec 3) (s : State) : (hallStage c s).parser = s.parser := rfl
@[simp] theorem hallStage_tx (c : BitVec 3) (s : State) : (hallStage c s).tx = s.tx := rfl
@[simp] theorem hallStage_inputs (c : BitVec 3) (s : State) : (hallStage c s).inputs = s.inputs := rfl
@[simp] theorem hallStage_issue (c : BitVec 3) (s : State) : (hallStage c s).issue = s.issue := rfl
@[simp] theorem hallStage_orderCount (c : BitVec 3) (s : State) : (hallStage c s).orderCount = s.orderCount := rfl
@[simp] theorem hallStage_result (c : BitVec 3) (s : State) : (hallStage c s).result = s.result := rfl

/-! ### speedStage -/

@[simp] theorem speedStage_cfg (s : State) : (speedStage s).cfg = s.cfg := rfl
@[simp] theorem speedStage_booted (s : State) : (speedStage s).booted = s.booted := rfl
@[simp] theorem speedStage_ports (s : State) : (speedStage s).ports = s.ports := rfl
@[simp] theorem speedStage_hall (s : State) : (speedStage s).hall = s.hall := rfl
@[simp] theorem speedStage_speed (s : State) :
    (speedStage s).speed = speedStageRegs s.cfg s.hall.transition s.hall.hallDir s.speed := rfl
@[simp] theorem speedStage_ctrl (s : State) : (speedStage s).ctrl = s.ctrl := rfl
@[simp] theorem speedStage_synth (s : State) : (speedStage s).synth = s.synth := rfl
@[simp] theorem speedStage_conf (s : State) : (speedStage s).conf = s.conf := rfl
@[simp] theorem speedStage_safety (s : State) : (speedStage s).safety = s.safety := rfl
@[simp] theorem speedStage_parser (s : State) : (speedStage s).parser = s.parser := rfl
@[simp] theorem speedStage_tx (s : State) : (speedStage s).tx = s.tx := rfl
@[simp] theorem speedStage_inputs (s : State) : (speedStage s).inputs = s.inputs := rfl
@[simp] theorem speedStage_issue (s : State) : (speedStage s).issue = s.issue := rfl
@[simp] theorem speedStage_orderCount (s : State) : (speedStage s).orderCount = s.orderCount := rfl
@[simp] theorem speedStage_result (s : State) : (speedStage s).result = s.result := rfl

/-! ### ctrlStage -/

@[simp] theorem ctrlStage_cfg (s : State) : (ctrlStage s).cfg = s.cfg := rfl
@[simp] theorem ctrlStage_booted (s : State) : (ctrlStage s).booted = s.booted := rfl
@[simp] theorem ctrlStage_ports (s : State) : (ctrlStage s).ports = s.ports := rfl
@[simp] theorem ctrlStage_hall (s : State) : (ctrlStage s).hall = s.hall := rfl
@[simp] theorem ctrlStage_speed (s : State) : (ctrlStage s).speed = s.speed := rfl
@[simp] theorem ctrlStage_ctrl (s : State) :
    (ctrlStage s).ctrl = ctrlStageRegs s.cfg s.hall s.speed.speedFilt s.ctrl := rfl
@[simp] theorem ctrlStage_synth (s : State) : (ctrlStage s).synth = s.synth := rfl
@[simp] theorem ctrlStage_conf (s : State) : (ctrlStage s).conf = s.conf := rfl
@[simp] theorem ctrlStage_safety (s : State) : (ctrlStage s).safety = s.safety := rfl
@[simp] theorem ctrlStage_parser (s : State) : (ctrlStage s).parser = s.parser := rfl
@[simp] theorem ctrlStage_tx (s : State) : (ctrlStage s).tx = s.tx := rfl
@[simp] theorem ctrlStage_inputs (s : State) : (ctrlStage s).inputs = s.inputs := rfl
@[simp] theorem ctrlStage_issue (s : State) : (ctrlStage s).issue = s.issue := rfl
@[simp] theorem ctrlStage_orderCount (s : State) : (ctrlStage s).orderCount = s.orderCount := rfl
@[simp] theorem ctrlStage_result (s : State) : (ctrlStage s).result = s.result := rfl

/-! ### synthStage -/

@[simp] theorem synthStage_cfg (s : State) : (synthStage s).cfg = s.cfg := rfl
@[simp] theorem synthStage_booted (s : State) : (synthStage s).booted = s.booted := rfl
@[simp] theorem synthStage_ports (s : State) : (synthStage s).ports = s.ports := rfl
@[simp] theorem synthStage_hall (s : State) : (synthStage s).hall = s.hall := rfl
@[simp] theorem synthStage_speed (s : State) : (synthStage s).speed = s.speed := rfl
@[simp] theorem synthStage_ctrl (s : State) : (synthStage s).ctrl = s.ctrl := rfl
@[simp] theorem synthStage_synth (s : State) : (synthStage s).synth = synthRegs s.cfg (synthPhases s) := rfl
@[simp] theorem synthStage_conf (s : State) : (synthStage s).conf = s.conf := rfl
@[simp] theorem synthStage_safety (s : State) : (synthStage s).safety = s.safety := rfl
@[simp] theorem synthStage_parser (s : State) : (synthStage s).parser = s.parser := rfl
@[simp] theorem synthStage_tx (s : State) : (synthStage s).tx = s.tx := rfl
@[simp] theorem synthStage_inputs (s : State) : (synthStage s).inputs = s.inputs := rfl
@[simp] theorem synthStage_issue (s : State) : (synthStage s).issue = s.issue := rfl
@[simp] theorem synthStage_orderCount (s : State) : (synthStage s).orderCount = s.orderCount := rfl
@[simp] theorem synthStage_result (s : State) : (synthStage s).result = s.result := rfl

/-! ### setPower -/

@[simp] theorem setPower_cfg (v : Int) (s : State) : (setPower v s).cfg = s.cfg := rfl
@[simp] theorem setPower_booted (v : Int) (s : State) : (setPower v s).booted = s.booted := rfl
@[simp] theorem setPower_ports (v : Int) (s : State) : (setPower v s).ports = s.ports := rfl
@[simp] theorem setPower_hall (v : Int) (s : State) : (setPower v s).hall = s.hall := rfl
@[simp] theorem setPower_speed (v : Int) (s : State) : (setPower v s).speed = s.speed := rfl
@[simp] theorem setPower_ctrl (v : Int) (s : State) : (setPower v s).ctrl = setPowerRegs v s.ctrl := rfl
@[simp] theorem setPower_synth (v : Int) (s : State) : (setPower v s).synth = s.synth := rfl
@[simp] theorem setPower_conf (v : Int) (s : State) : (setPower v s).conf = s.conf := rfl
@[simp] theorem setPower_safety (v : Int) (s : State) : (setPower v s).safety = s.safety := rfl
@[simp] theorem setPower_parser (v : Int) (s : State) : (setPower v s).parser = s.parser := rfl
@[simp] theorem setPower_tx (v : Int) (s : State) : (setPower v s).tx = s.tx := rfl
@[simp] theorem setPower_inputs (v : Int) (s : State) : (setPower v s).inputs = s.inputs := rfl
@[simp] theorem setPower_issue (v : Int) (s : State) : (setPower v s).issue = s.issue := rfl
@[simp] theorem setPower_orderCount (v : Int) (s : State) : (setPower v s).orderCount = s.orderCount := rfl
@[simp] theorem setPower_result (v : Int) (s : State) : (setPower v s).result = s.result := rfl

/-! ### setSpeed -/

@[simp] theorem setSpeed_cfg (v : Int) (s : State) : (setSpeed v s).cfg = s.cfg := rfl
@[simp] theorem setSpeed_booted (v : Int) (s : State) : (setSpeed v s).booted = s.booted := rfl
@[simp] theorem setSpeed_ports (v : Int) (s : State) : (setSpeed v s).ports = s.ports := rfl
@[simp] theorem setSpeed_hall (v : Int) (s : State) : (setSpeed v s).hall = s.hall := rfl
@[simp] theorem setSpeed_speed (v : Int) (s : State) : (setSpeed v s).speed = s.speed := rfl
@[simp] theorem setSpeed_ctrl (v : Int) (s : State) :
    (setSpeed v s).ctrl = setSpeedRegs s.cfg s.hall s.conf.stepThresh v s.ctrl := rfl
@[simp] theorem setSpeed_synth (v : Int) (s : State) : (setSpeed v s).synth = s.synth := rfl
@[simp] theorem setSpeed_conf (v : Int) (s : State) : (setSpeed v s).conf = s.conf := rfl
@[simp] theorem setSpeed_safety (v : Int) (s : State) : (setSpeed v s).safety = s.safety := rfl
@[simp] theorem setSpeed_parser (v : Int) (s : State) : (setSpeed v s).parser = s.parser := rfl
@[simp] theorem setSpeed_tx (v : Int) (s : State) : (setSpeed v s).tx = s.tx := rfl
@[simp] theorem setSpeed_inputs (v : Int) (s : State) : (setSpeed v s).inputs = s.inputs := rfl
@[simp] theorem setSpeed_issue (v : Int) (s : State) : (setSpeed v s).issue = s.issue := rfl
@[simp] theorem setSpeed_orderCount (v : Int) (s : State) : (setSpeed v s).orderCount = s.orderCount := rfl
@[simp] theorem setSpeed_result (v : Int) (s : State) : (setSpeed v s).result = s.result := rfl

/-! ### emit -/

@[simp] theorem emit_cfg (bytes : List Byte) (s : State) : (emit bytes s).cfg = s.cfg := rfl
@[simp] theorem emit_booted (bytes : List Byte) (s : State) : (emit bytes s).booted = s.booted := rfl
@[simp] theorem emit_ports (bytes : List Byte) (s : State) : (emit bytes s).ports = s.ports := rfl
@[simp] theorem emit_hall (bytes : List Byte) (s : State) : (emit bytes s).hall = s.hall := rfl
@[simp] theorem emit_speed (bytes : List Byte) (s : State) : (emit bytes s).speed = s.speed := rfl
@[simp] theorem emit_ctrl (bytes : List Byte) (s : State) : (emit bytes s).ctrl = s.ctrl := rfl
@[simp] theorem emit_synth (bytes : List Byte) (s : State) : (emit bytes s).synth = s.synth := rfl
@[simp] theorem emit_conf (bytes : List Byte) (s : State) : (emit bytes s).conf = s.conf := rfl
@[simp] theorem emit_safety (bytes : List Byte) (s : State) : (emit bytes s).safety = s.safety := rfl
@[simp] theorem emit_parser (bytes : List Byte) (s : State) : (emit bytes s).parser = s.parser := rfl
@[simp] theorem emit_tx (bytes : List Byte) (s : State) : (emit bytes s).tx = s.tx ++ bytes := rfl
@[simp] theorem emit_inputs (bytes : List Byte) (s : State) : (emit bytes s).inputs = s.inputs := rfl
@[simp] theorem emit_issue (bytes : List Byte) (s : State) : (emit bytes s).issue = s.issue := rfl
@[simp] theorem emit_orderCount (bytes : List Byte) (s : State) : (emit bytes s).orderCount = s.orderCount := rfl
@[simp] theorem emit_result (bytes : List Byte) (s : State) : (emit bytes s).result = s.result := rfl

/-! ### sendReply -/

@[simp] theorem sendReply_cfg (r : Option RspName) (seq : BitVec 4) (cid rid : Byte) (s : State) :
    (sendReply r seq cid rid s).cfg = s.cfg := rfl
@[simp] theorem sendReply_booted (r : Option RspName) (seq : BitVec 4) (cid rid : Byte) (s : State) :
    (sendReply r seq cid rid s).booted = s.booted := rfl
@[simp] theorem sendReply_ports (r : Option RspName) (seq : BitVec 4) (cid rid : Byte) (s : State) :
    (sendReply r seq cid rid s).ports = s.ports := rfl
@[simp] theorem sendReply_hall (r : Option RspName) (seq : BitVec 4) (cid rid : Byte) (s : State) :
    (sendReply r seq cid rid s).hall = s.hall := rfl
@[simp] theorem sendReply_speed (r : Option RspName) (seq : BitVec 4) (cid rid : Byte) (s : State) :
    (sendReply r seq cid rid s).speed = s.speed := rfl
@[simp] theorem sendReply_ctrl (r : Option RspName) (seq : BitVec 4) (cid rid : Byte) (s : State) :
    (sendReply r seq cid rid s).ctrl = s.ctrl := rfl
@[simp] theorem sendReply_synth (r : Option RspName) (seq : BitVec 4) (cid rid : Byte) (s : State) :
    (sendReply r seq cid rid s).synth = s.synth := rfl
@[simp] theorem sendReply_conf (r : Option RspName) (seq : BitVec 4) (cid rid : Byte) (s : State) :
    (sendReply r seq cid rid s).conf = s.conf := rfl
@[simp] theorem sendReply_safety (r : Option RspName) (seq : BitVec 4) (cid rid : Byte) (s : State) :
    (sendReply r seq cid rid s).safety = s.safety := rfl
@[simp] theorem sendReply_parser (r : Option RspName) (seq : BitVec 4) (cid rid : Byte) (s : State) :
    (sendReply r seq cid rid s).parser = s.parser := rfl
@[simp] theorem sendReply_tx (r : Option RspName) (seq : BitVec 4) (cid rid : Byte) (s : State) :
    (sendReply r seq cid rid s).tx = s.tx ++ replyFrame s.cfg seq cid rid (rspPayload r s) := rfl
@[simp] theorem sendReply_inputs (r : Option RspName) (seq : BitVec 4) (cid rid : Byte) (s : State) :
    (sendReply r seq cid rid s).inputs = s.inputs := rfl
@[simp] theorem sendReply_issue (r : Option RspName) (seq : BitVec 4) (cid rid : Byte) (s : State) :
    (sendReply r seq cid rid s).issue = s.issue := rfl
@[simp] theorem sendReply_orderCount (r : Option RspName) (seq : BitVec 4) (cid rid : Byte) (s : State) :
    (sendReply r seq cid rid s).orderCount = s.orderCount := rfl
@[simp] theorem sendReply_result (r : Option RspName) (seq : BitVec 4) (cid rid : Byte) (s : State) :
    (sendReply r seq cid rid s).result = s.result := rfl

/-! ### reply -/

@[simp] theorem reply_cfg (seq : BitVec 4) (cid rid : Byte) (s : State) : (reply seq cid rid s).cfg = s.cfg := rfl
@[simp] theorem reply_booted (seq : BitVec 4) (cid rid : Byte) (s : State) :
    (reply seq cid rid s).booted = s.booted := rfl
@[simp] theorem reply_ports (seq : BitVec 4) (cid rid : Byte) (s : State) :
    (reply seq cid rid s).ports = s.ports := rfl
@[simp] theorem reply_hall (seq : BitVec 4) (cid rid : Byte) (s : State) : (reply seq cid rid s).hall = s.hall := rfl
@[simp] theorem reply_speed (seq : BitVec 4) (cid rid : Byte) (s : State) :
    (reply seq cid rid s).speed = s.speed := rfl
@[simp] theorem reply_ctrl (seq : BitVec 4) (cid rid : Byte) (s : State) : (reply seq cid rid s).ctrl = s.ctrl := rfl
@[simp] theorem reply_synth (seq : BitVec 4) (cid rid : Byte) (s : State) :
    (reply seq cid rid s).synth = s.synth := rfl
@[simp] theorem reply_conf (seq : BitVec 4) (cid rid : Byte) (s : State) : (reply seq cid rid s).conf = s.conf := rfl
@[simp] theorem reply_safety (seq : BitVec 4) (cid rid : Byte) (s : State) :
    (reply seq cid rid s).safety = s.safety := rfl
@[simp] theorem reply_parser (seq : BitVec 4) (cid rid : Byte) (s : State) :
    (reply seq cid rid s).parser = s.parser := rfl
@[simp] theorem reply_tx (seq : BitVec 4) (cid rid : Byte) (s : State) :
    (reply seq cid rid s).tx = s.tx ++ replyFrame s.cfg seq cid rid (rspPayload (s.cfg.rspCode.lookup rid) s) := rfl
@[simp] theorem reply_inputs (seq : BitVec 4) (cid rid : Byte) (s : State) :
    (reply seq cid rid s).inputs = s.inputs := rfl
@[simp] theorem reply_issue (seq : BitVec 4) (cid rid : Byte) (s : State) :
    (reply seq cid rid s).issue = s.issue := rfl
@[simp] theorem reply_orderCount (seq : BitVec 4) (cid rid : Byte) (s : State) :
    (reply seq cid rid s).orderCount = s.orderCount := rfl
@[simp] theorem reply_result (seq : BitVec 4) (cid rid : Byte) (s : State) :
    (reply seq cid rid s).result = s.result := rfl

/-! ### reload -/

@[simp] theorem reload_cfg (s : State) : (reload s).cfg = s.cfg := rfl
@[simp] theorem reload_booted (s : State) : (reload s).booted = s.booted := rfl
@[simp] theorem reload_ports (s : State) : (reload s).ports = s.ports := rfl
@[simp] theorem reload_hall (s : State) : (reload s).hall = s.hall := rfl
@[simp] theorem reload_speed (s : State) : (reload s).speed = s.speed := rfl
@[simp] theorem reload_ctrl (s : State) : (reload s).ctrl = s.ctrl := rfl
@[simp] theorem reload_synth (s : State) : (reload s).synth = s.synth := rfl
@[simp] theorem reload_conf (s : State) : (reload s).conf = s.conf := rfl
@[simp] theorem reload_safety (s : State) : (reload s).safety = { s.safety with wdtCnt := s.conf.wdtInterval } := rfl
@[simp] theorem reload_parser (s : State) : (reload s).parser = s.parser := rfl
@[simp] theorem reload_tx (s : State) : (reload s).tx = s.tx := rfl
@[simp] theorem reload_inputs (s : State) : (reload s).inputs = s.inputs := rfl
@[simp] theorem reload_issue (s : State) : (reload s).issue = s.issue := rfl
@[simp] theorem reload_orderCount (s : State) : (reload s).orderCount = s.orderCount := rfl
@[simp] theorem reload_result (s : State) : (reload s).result = s.result := rfl

/-! ### cmdEna -/

@[simp] theorem cmdEna_cfg (s : State) : (cmdEna s).cfg = s.cfg := rfl
@[simp] theorem cmdEna_booted (s : State) : (cmdEna s).booted = s.booted := rfl
@[simp] theorem cmdEna_ports (s : State) : (cmdEna s).ports = s.ports := rfl
@[simp] theorem cmdEna_hall (s : State) : (cmdEna s).hall = s.hall := rfl
@[simp] theorem cmdEna_speed (s : State) : (cmdEna s).speed = s.speed := rfl
@[simp] theorem cmdEna_ctrl (s : State) : (cmdEna s).ctrl = s.ctrl := rfl
@[simp] theorem cmdEna_synth (s : State) : (cmdEna s).synth = s.synth := rfl
@[simp] theorem cmdEna_conf (s : State) : (cmdEna s).conf = s.conf := rfl
@[simp] theorem cmdEna_safety (s : State) :
    (cmdEna s).safety = { s.safety with enable := true, wdtExpired := false } := rfl
@[simp] theorem cmdEna_parser (s : State) : (cmdEna s).parser = s.parser := rfl
@[simp] theorem cmdEna_tx (s : State) : (cmdEna s).tx = s.tx := rfl
@[simp] theorem cmdEna_inputs (s : State) : (cmdEna s).inputs = s.inputs := rfl
@[simp] theorem cmdEna_issue (s : State) : (cmdEna s).issue = s.issue := rfl
@[simp] theorem cmdEna_orderCount (s : State) : (cmdEna s).orderCount = s.orderCount := rfl
@[simp] theorem cmdEna_result (s : State) : (cmdEna s).result = s.result := rfl

/-! ### cmdDis -/

@[simp] theorem cmdDis_cfg (s : State) : (cmdDis s).cfg = s.cfg := rfl
@[simp] theorem cmdDis_booted (s : State) : (cmdDis s).booted = s.booted := rfl
@[simp] theorem cmdDis_ports (s : State) : (cmdDis s).ports = s.ports := rfl
@[simp] theorem cmdDis_hall (s : State) : (cmdDis s).hall = s.hall := rfl
@[simp] theorem cmdDis_speed (s : State) : (cmdDis s).speed = s.speed := rfl
@[simp] theorem cmdDis_ctrl (s : State) : (cmdDis s).ctrl = s.ctrl := rfl
@[simp] theorem cmdDis_synth (s : State) : (cmdDis s).synth = s.synth := rfl
@[simp] theorem cmdDis_conf (s : State) : (cmdDis s).conf = s.conf := rfl
@[simp] theorem cmdDis_safety (s : State) : (cmdDis s).safety = { s.safety with enable := false } := rfl
@[simp] theorem cmdDis_parser (s : State) : (cmdDis s).parser = s.parser := rfl
@[simp] theorem cmdDis_tx (s : State) : (cmdDis s).tx = s.tx := rfl
@[simp] theorem cmdDis_inputs (s : State) : (cmdDis s).inputs = s.inputs := rfl
@[simp] theorem cmdDis_issue (s : State) : (cmdDis s).issue = s.issue := rfl
@[simp] theorem cmdDis_orderCount (s : State) : (cmdDis s).orderCount = s.orderCount := rfl
@[simp] theorem cmdDis_result (s : State) : (cmdDis s).result = s.result := rfl

/-! ### cmdRes -/

@[simp] theorem cmdRes_cfg (s : State) : (cmdRes s).cfg = s.cfg := rfl
@[simp] theorem cmdRes_booted (s : State) : (cmdRes s).booted = s.booted := rfl
@[simp] theorem cmdRes_ports (s : State) : (cmdRes s).ports = s.ports := rfl
@[simp] theorem cmdRes_hall (s : State) : (cmdRes s).hall = { s.hall with odo := 0 } := rfl
@[simp] theorem cmdRes_speed (s : State) : (cmdRes s).speed = s.speed := rfl
@[simp] theorem cmdRes_ctrl (s : State) : (cmdRes s).ctrl = s.ctrl := rfl
@[simp] theorem cmdRes_synth (s : State) : (cmdRes s).synth = s.synth := rfl
@[simp] theorem cmdRes_conf (s : State) : (cmdRes s).conf = s.conf := rfl
@[simp] theorem cmdRes_safety (s : State) : (cmdRes s).safety = s.safety := rfl
@[simp] theorem cmdRes_parser (s : State) : (cmdRes s).parser = s.parser := rfl
@[simp] theorem cmdRes_tx (s : State) : (cmdRes s).tx = s.tx := rfl
@[simp] theorem cmdRes_inputs (s : State) : (cmdRes s).inputs = s.inputs := rfl
@[simp] theorem cmdRes_issue (s : State) : (cmdRes s).issue = s.issue := rfl
@[simp] theorem cmdRes_orderCount (s : State) : (cmdRes s).orderCount = s.orderCount := rfl
@[simp] theorem cmdRes_result (s : State) : (cmdRes s).result = s.result := rfl

/-! ### cmdXxx -/

@[simp] theorem cmdXxx_cfg (s : State) : (cmdXxx s).cfg = s.cfg := rfl
@[simp] theorem cmdXxx_booted (s : State) : (cmdXxx s).booted = s.booted := rfl
@[simp] theorem cmdXxx_ports (s : State) : (cmdXxx s).ports = s.ports := rfl
@[simp] theorem cmdXxx_hall (s : State) : (cmdXxx s).hall = s.hall := rfl
@[simp] theorem cmdXxx_speed (s : State) : (cmdXxx s).speed = s.speed := rfl
@[simp] theorem cmdXxx_ctrl (s : State) : (cmdXxx s).ctrl = setPowerRegs 0 s.ctrl := rfl
@[simp] theorem cmdXxx_synth (s : State) : (cmdXxx s).synth = s.synth := rfl
@[simp] theorem cmdXxx_conf (s : State) : (cmdXxx s).conf = s.conf := rfl
@[simp] theorem cmdXxx_safety (s : State) :
    (cmdXxx s).safety = { s.safety with enable := false, estop := true } := rfl
@[simp] theorem cmdXxx_parser (s : State) : (cmdXxx s).parser = s.parser := rfl
@[simp] theorem cmdXxx_tx (s : State) : (cmdXxx s).tx = s.tx := rfl
@[simp] theorem cmdXxx_inputs (s : State) : (cmdXxx s).inputs = s.inputs := rfl
@[simp] theorem cmdXxx_issue (s : State) : (cmdXxx s).issue = s.issue := rfl
@[simp] theorem cmdXxx_orderCount (s : State) : (cmdXxx s).orderCount = s.orderCount := rfl
@[simp] theorem cmdXxx_result (s : State) : (cmdXxx s).result = s.result := rfl

/-! ### expire -/

@[simp] theorem expire_cfg (s : State) : (expire s).cfg = s.cfg := rfl
@[simp] theorem expire_booted (s : State) : (expire s).booted = s.booted := rfl
@[simp] theorem expire_ports (s : State) : (expire s).ports = s.ports := rfl
@[simp] theorem expire_hall (s : State) : (expire s).hall = s.hall := rfl
@[simp] theorem expire_speed (s : State) : (expire s).speed = s.speed := rfl
@[simp] theorem expire_ctrl (s : State) : (expire s).ctrl = setPowerRegs 0 s.ctrl := rfl
@[simp] theorem expire_synth (s : State) : (expire s).synth = s.synth := rfl
@[simp] theorem expire_conf (s : State) : (expire s).conf = s.conf := rfl
@[simp] theorem expire_safety (s : State) :
    (expire s).safety = { s.safety with wdtExpired := true, enable := false } := rfl
@[simp] theorem expire_parser (s : State) : (expire s).parser = s.parser := rfl
@[simp] theorem expire_tx (s : State) : (expire s).tx = s.tx := rfl
@[simp] theorem expire_inputs (s : State) : (expire s).inputs = s.inputs := rfl
@[simp] theorem expire_issue (s : State) : (expire s).issue = s.issue := rfl
@[simp] theorem expire_orderCount (s : State) : (expire s).orderCount = s.orderCount := rfl
@[simp] theorem expire_result (s : State) : (expire s).result = s.result := rfl

/-! ### doReset -/

@[simp] theorem doReset_cfg (s : State) : (doReset s).cfg = s.cfg := rfl
@[simp] theorem doReset_booted (s : State) : (doReset s).booted = true := rfl
@[simp] theorem doReset_ports (s : State) : (doReset s).ports = s.ports := rfl
@[simp] theorem doReset_hall (s : State) : (doReset s).hall = HallRegs.reset := rfl
@[simp] theorem doReset_speed (s : State) : (doReset s).speed = SpeedRegs.reset s.cfg := rfl
@[simp] theorem doReset_ctrl (s : State) : (doReset s).ctrl = CtrlRegs.reset := rfl
@[simp] theorem doReset_synth (s : State) : (doReset s).synth = SynthRegs.reset s.cfg := rfl
@[simp] theorem doReset_conf (s : State) : (doReset s).conf = ConfRegs.reset s.cfg := rfl
@[simp] theorem doReset_safety (s : State) : (doReset s).safety = SafetyRegs.reset := rfl
@[simp] theorem doReset_parser (s : State) : (doReset s).parser = Parser.reset := rfl
@[simp] theorem doReset_tx (s : State) : (doReset s).tx = [] := rfl
@[simp] theorem doReset_inputs (s : State) : (doReset s).inputs = s.inputs := rfl
@[simp] theorem doReset_issue (s : State) : (doReset s).issue = s.issue := rfl
@[simp] theorem doReset_orderCount (s : State) : (doReset s).orderCount = s.orderCount := rfl
@[simp] theorem doReset_result (s : State) : (doReset s).result = OpResult.nothing := rfl

/-! ### The controller's updates -/

@[simp] theorem setPowerRegs_mode (v : Int) (r : CtrlRegs) : (setPowerRegs v r).mode = .openLoop := rfl
@[simp] theorem setPowerRegs_restartPending (v : Int) (r : CtrlRegs) :
    (setPowerRegs v r).restartPending = false := rfl
@[simp] theorem setPowerRegs_pwmInput (v : Int) (r : CtrlRegs) :
    (setPowerRegs v r).pwmInput = clamp v (-pwmInMax) pwmInMax := rfl
@[simp] theorem setPowerRegs_setpoint (v : Int) (r : CtrlRegs) : (setPowerRegs v r).setpoint = 0 := rfl
@[simp] theorem setPowerRegs_lastSetpoint (v : Int) (r : CtrlRegs) : (setPowerRegs v r).lastSetpoint = 0 := rfl
@[simp] theorem setPowerRegs_integral (v : Int) (r : CtrlRegs) : (setPowerRegs v r).integral = 0 := rfl
@[simp] theorem setPowerRegs_pTerm (v : Int) (r : CtrlRegs) : (setPowerRegs v r).pTerm = 0 := rfl
@[simp] theorem setPowerRegs_iTerm (v : Int) (r : CtrlRegs) : (setPowerRegs v r).iTerm = 0 := rfl
@[simp] theorem setPowerRegs_fTerm (v : Int) (r : CtrlRegs) : (setPowerRegs v r).fTerm = 0 := rfl
@[simp] theorem setPowerRegs_pidOut (v : Int) (r : CtrlRegs) : (setPowerRegs v r).pidOut = 0 := rfl
@[simp] theorem setPowerRegs_pwmReg (v : Int) (r : CtrlRegs) : (setPowerRegs v r).pwmReg = r.pwmReg := rfl
@[simp] theorem setPowerRegs_pwmOut (v : Int) (r : CtrlRegs) : (setPowerRegs v r).pwmOut = r.pwmOut := rfl
@[simp] theorem setPowerRegs_angleY (v : Int) (r : CtrlRegs) : (setPowerRegs v r).angleY = r.angleY := rfl
@[simp] theorem setPowerRegs_stepCnt (v : Int) (r : CtrlRegs) : (setPowerRegs v r).stepCnt = 0 := rfl

@[simp] theorem enterStepper_mode (cfg : Config) (k : Fin 6) (r : CtrlRegs) :
    (enterStepper cfg k r).mode = .stepper := rfl
@[simp] theorem enterStepper_restartPending (cfg : Config) (k : Fin 6) (r : CtrlRegs) :
    (enterStepper cfg k r).restartPending = r.restartPending := rfl
@[simp] theorem enterStepper_pwmInput (cfg : Config) (k : Fin 6) (r : CtrlRegs) :
    (enterStepper cfg k r).pwmInput = r.pwmInput := rfl
@[simp] theorem enterStepper_setpoint (cfg : Config) (k : Fin 6) (r : CtrlRegs) :
    (enterStepper cfg k r).setpoint = r.setpoint := rfl
@[simp] theorem enterStepper_lastSetpoint (cfg : Config) (k : Fin 6) (r : CtrlRegs) :
    (enterStepper cfg k r).lastSetpoint = r.lastSetpoint := rfl
@[simp] theorem enterStepper_integral (cfg : Config) (k : Fin 6) (r : CtrlRegs) :
    (enterStepper cfg k r).integral = r.integral := rfl
@[simp] theorem enterStepper_pTerm (cfg : Config) (k : Fin 6) (r : CtrlRegs) :
    (enterStepper cfg k r).pTerm = r.pTerm := rfl
@[simp] theorem enterStepper_iTerm (cfg : Config) (k : Fin 6) (r : CtrlRegs) :
    (enterStepper cfg k r).iTerm = r.iTerm := rfl
@[simp] theorem enterStepper_fTerm (cfg : Config) (k : Fin 6) (r : CtrlRegs) :
    (enterStepper cfg k r).fTerm = r.fTerm := rfl
@[simp] theorem enterStepper_pidOut (cfg : Config) (k : Fin 6) (r : CtrlRegs) :
    (enterStepper cfg k r).pidOut = r.pidOut := rfl
@[simp] theorem enterStepper_pwmReg (cfg : Config) (k : Fin 6) (r : CtrlRegs) :
    (enterStepper cfg k r).pwmReg = r.pwmReg := rfl
@[simp] theorem enterStepper_pwmOut (cfg : Config) (k : Fin 6) (r : CtrlRegs) :
    (enterStepper cfg k r).pwmOut = r.pwmOut := rfl
@[simp] theorem enterStepper_angleY (cfg : Config) (k : Fin 6) (r : CtrlRegs) :
    (enterStepper cfg k r).angleY = sectorAngle cfg k := rfl
@[simp] theorem enterStepper_stepCnt (cfg : Config) (k : Fin 6) (r : CtrlRegs) :
    (enterStepper cfg k r).stepCnt = 0 := rfl

@[simp] theorem pwmFilterRegs_mode (cfg : Config) (x : Int) (r : CtrlRegs) :
    (pwmFilterRegs cfg x r).mode = r.mode := rfl
@[simp] theorem pwmFilterRegs_restartPending (cfg : Config) (x : Int) (r : CtrlRegs) :
    (pwmFilterRegs cfg x r).restartPending = r.restartPending := rfl
@[simp] theorem pwmFilterRegs_pwmInput (cfg : Config) (x : Int) (r : CtrlRegs) :
    (pwmFilterRegs cfg x r).pwmInput = r.pwmInput := rfl
@[simp] theorem pwmFilterRegs_setpoint (cfg : Config) (x : Int) (r : CtrlRegs) :
    (pwmFilterRegs cfg x r).setpoint = r.setpoint := rfl
@[simp] theorem pwmFilterRegs_lastSetpoint (cfg : Config) (x : Int) (r : CtrlRegs) :
    (pwmFilterRegs cfg x r).lastSetpoint = r.lastSetpoint := rfl
@[simp] theorem pwmFilterRegs_integral (cfg : Config) (x : Int) (r : CtrlRegs) :
    (pwmFilterRegs cfg x r).integral = r.integral := rfl
@[simp] theorem pwmFilterRegs_pTerm (cfg : Config) (x : Int) (r : CtrlRegs) :
    (pwmFilterRegs cfg x r).pTerm = r.pTerm := rfl
@[simp] theorem pwmFilterRegs_iTerm (cfg : Config) (x : Int) (r : CtrlRegs) :
    (pwmFilterRegs cfg x r).iTerm = r.iTerm := rfl
@[simp] theorem pwmFilterRegs_fTerm (cfg : Config) (x : Int) (r : CtrlRegs) :
    (pwmFilterRegs cfg x r).fTerm = r.fTerm := rfl
@[simp] theorem pwmFilterRegs_pidOut (cfg : Config) (x : Int) (r : CtrlRegs) :
    (pwmFilterRegs cfg x r).pidOut = r.pidOut := rfl
@[simp] theorem pwmFilterRegs_pwmReg (cfg : Config) (x : Int) (r : CtrlRegs) :
    (pwmFilterRegs cfg x r).pwmReg = r.pwmReg + x - asr r.pwmReg cfg.pwmShift := rfl
@[simp] theorem pwmFilterRegs_pwmOut (cfg : Config) (x : Int) (r : CtrlRegs) :
    (pwmFilterRegs cfg x r).pwmOut = asr (r.pwmReg + x - asr r.pwmReg cfg.pwmShift) cfg.pwmShift := rfl
@[simp] theorem pwmFilterRegs_angleY (cfg : Config) (x : Int) (r : CtrlRegs) :
    (pwmFilterRegs cfg x r).angleY = r.angleY := rfl
@[simp] theorem pwmFilterRegs_stepCnt (cfg : Config) (x : Int) (r : CtrlRegs) :
    (pwmFilterRegs cfg x r).stepCnt = r.stepCnt := rfl

@[simp] theorem pidfRegs_mode (cfg : Config) (x : Int) (r : CtrlRegs) : (pidfRegs cfg x r).mode = r.mode := rfl
@[simp] theorem pidfRegs_restartPending (cfg : Config) (x : Int) (r : CtrlRegs) : (pidfRegs cfg x r).restartPending = r.restartPending := rfl
@[simp] theorem pidfRegs_pwmInput (cfg : Config) (x : Int) (r : CtrlRegs) : (pidfRegs cfg x r).pwmInput = r.pwmInput := rfl
@[simp] theorem pidfRegs_setpoint (cfg : Config) (x : Int) (r : CtrlRegs) : (pidfRegs cfg x r).setpoint = r.setpoint := rfl
@[simp] theorem pidfRegs_pwmReg (cfg : Config) (x : Int) (r : CtrlRegs) : (pidfRegs cfg x r).pwmReg = r.pwmReg := rfl
@[simp] theorem pidfRegs_pwmOut (cfg : Config) (x : Int) (r : CtrlRegs) : (pidfRegs cfg x r).pwmOut = r.pwmOut := rfl
@[simp] theorem pidfRegs_angleY (cfg : Config) (x : Int) (r : CtrlRegs) : (pidfRegs cfg x r).angleY = r.angleY := rfl
@[simp] theorem pidfRegs_stepCnt (cfg : Config) (x : Int) (r : CtrlRegs) : (pidfRegs cfg x r).stepCnt = r.stepCnt := rfl
@[simp] theorem pidfRegs_lastSetpoint (cfg : Config) (x : Int) (r : CtrlRegs) :
    (pidfRegs cfg x r).lastSetpoint = r.setpoint := rfl

/-! ### The outputs -/

@[simp] theorem outEn_doReset (s : State) : outEn (doReset s) = false := rfl
@[simp] theorem estopOut_eq (s : State) : estopOut s = s.safety.estop := rfl

end Sys2Proof.Machine
end

