-- ==== Sys2Proof/Laws/Ops.lean ====
section
/-! SUPPORT. What each shared operation can do, said once: the guard, DISPATCH, the setters, the parser's one byte. -/

namespace Sys2Proof.Machine

/-! ### The guard -/

theorem State.Admitted.ready {s : State} (h : s.Admitted) : s.Ready := by
  obtain ⟨⟨h1, _⟩, h2⟩ := h
  exact And.intro h1 h2

theorem guarded_ready {s : State} (h : s.Ready) (k : State → Out) : guarded s k = k s := by
  obtain ⟨h1, h2⟩ := h
  simp [guarded, h1, h2]

theorem guarded_of {s : State} (h : s.Admitted) (k : State → Out) : guarded s k = k s := guarded_ready h.ready k

/-- A guarded operation answers a next state only in a ready state, and then as the operation itself does. -/
theorem guarded_next {s t : State} {k : State → Out} (h : guarded s k = .next t) : s.Ready ∧ k s = .next t := by
  cases hc : s.cfg.check with
  | some e => simp [guarded, hc] at h
  | none =>
    cases hb : s.booted with
    | false => simp [guarded, hc, hb] at h
    | true =>
      rw [guarded_ready (And.intro hc hb)] at h
      exact And.intro (And.intro hc hb) h

theorem runUpdate_ready {s : State} (h : s.Ready) (f : State → State) : runUpdate f s = .next (f s) :=
  guarded_ready h _

theorem runUpdate_of {s : State} (h : s.Admitted) (f : State → State) : runUpdate f s = .next (f s) :=
  guarded_of h _

theorem runUpdate_next {s t : State} {f : State → State} (h : runUpdate f s = .next t) : s.Ready ∧ t = f s := by
  obtain ⟨h1, h2⟩ := guarded_next h
  exact ⟨h1, by cases h2; rfl⟩

/-- Every operation of a refused configuration is refused, by the flaw's name (R517). -/
theorem runUpdate_flaw {s : State} {e : ConfigFlaw} (h : s.cfg.check = some e) (f : State → State) :
    runUpdate f s = .refused (.configuration e) := by
  simp [runUpdate, guarded, h]

theorem execReset_of {s : State} (h : s.cfg.check = none) : execReset s = .next (doReset s) := by
  simp [execReset, h]

/-! ### DISPATCH -/

/-- A filtered frame changes nothing (R400). -/
theorem dispatch_filtered {f : Frame} {s : State} (h : filtered s.cfg f = true) : dispatch f s = s := by
  simp [dispatch, h]

/-- The commands and the reload never write the build parameters. -/
@[simp] theorem runCommand_cfg (c : Option CmdName) (pl : List Byte) (s : State) :
    (runCommand c pl s).cfg = s.cfg := by
  cases c with
  | none => rfl
  | some n =>
    cases n <;> simp only [runCommand, cmdPow, cmdDog, cmdMod, cmdSpe] <;> first | rfl | (split <;> rfl)

/-- An unfiltered frame that asks for no reply: reload, then the command (R400, R410). -/
theorem dispatch_quiet {f : Frame} {s : State} (h : filtered s.cfg f = false) (hr : f.rid = s.cfg.rspCode.nor) :
    dispatch f s = runCommand (s.cfg.cmdCode.lookup f.cid) f.payload (reload s) := by
  simp [dispatch, h, hr]

/-- An unfiltered frame that asks for a reply: reload, the command, then the reply on the state it left (R420). -/
theorem dispatch_reply {f : Frame} {s : State} (h : filtered s.cfg f = false) (hr : f.rid ≠ s.cfg.rspCode.nor) :
    dispatch f s =
      reply f.seq f.cid f.rid (runCommand (s.cfg.cmdCode.lookup f.cid) f.payload (reload s)) := by
  simp [dispatch, h, hr]

/-! ### SetSpeed -/

/-- Everything SetSpeed can do to the mode: open loop, running, deferred, entry into STEPPER, or the setpoint only
(R302 to R308). -/
theorem setSpeedRegs_cases (cfg : Config) (hall : HallRegs) (th : Half) (v : Int) (r : CtrlRegs) :
    let w := clamp v (-speedSpMax) speedSpMax
    let q := setSpeedRegs cfg hall th v r
    (w = 0 ∧ q.mode = .openLoop ∧ q.setpoint = 0 ∧ q.restartPending = false) ∨
    (w ≠ 0 ∧ q.setpoint = w ∧
      ((th.toNat < w.natAbs ∧ q.mode = .running ∧ q.restartPending = false) ∨
       (w.natAbs ≤ th.toNat ∧ r.mode = .running ∧ q.mode = .running ∧ q.restartPending = true) ∨
       (w.natAbs ≤ th.toNat ∧ r.mode = .openLoop ∧ q.mode = .stepper ∧ q.restartPending = r.restartPending) ∨
       (w.natAbs ≤ th.toNat ∧ r.mode = .stepper ∧ q = { r with setpoint := w }))) := by
  intro w q
  by_cases hw : w = 0
  · left
    simp only [q, setSpeedRegs, w] at hw ⊢
    simp [hw]
  · right
    refine ⟨hw, ?_⟩
    by_cases ht : th.toNat < w.natAbs
    · refine ⟨?_, .inl ⟨ht, ?_⟩⟩ <;> simp only [q, setSpeedRegs, w] at hw ht ⊢ <;> simp [hw, ht]
    · have ht' : w.natAbs ≤ th.toNat := by omega
      cases hm : r.mode with
      | running =>
        refine ⟨?_, .inr (.inl ⟨ht', rfl, ?_⟩)⟩ <;> simp only [q, setSpeedRegs, w] at hw ht ⊢ <;> simp [hw, ht, hm]
      | openLoop =>
        refine ⟨?_, .inr (.inr (.inl ⟨ht', rfl, ?_⟩))⟩ <;> simp only [q, setSpeedRegs, w] at hw ht ⊢ <;>
          cases hs : hall.sectorValid <;> simp [hw, ht, hm]
      | stepper =>
        refine ⟨?_, .inr (.inr (.inr ⟨ht', rfl, ?_⟩))⟩ <;> simp only [q, setSpeedRegs, w] at hw ht ⊢ <;>
          simp [hw, ht, hm]

/-! ### The parser's one byte -/

/-- The check loop only ever goes back to IDLE, waits, or hands a frame over from IDLE. -/
theorem checkLoop_frame_idle {cfg : Config} {n : Nat} {p q : Parser} {f : Frame}
    (h : checkLoop cfg n p = (q, some f)) : q.recording = false ∧ q.idx = 0 := by
  induction n generalizing p with
  | zero => simp [checkLoop] at h
  | succ n ih =>
    simp only [checkLoop] at h
    split at h
    · simp at h
    · split at h
      · simp at h
      · split at h
        · simp at h
        · split at h
          · cases h; exact ⟨rfl, rfl⟩
          · split at h
            · simp at h
            · exact ih h

/-- After a hand-over the parser is IDLE (R364, R460). -/
theorem parseByte_frame_idle {cfg : Config} {b : Byte} {p q : Parser} {f : Frame}
    (h : parseByte cfg b p = (q, some f)) : q.IsIdle := by
  simp only [parseByte] at h
  split at h
  · split at h <;> simp at h
  · exact checkLoop_frame_idle h

/-- Everything RX_PARSE can do: parser registers only, or a dispatch from an IDLE parser. -/
theorem rxParse_cases (b : Byte) (s : State) :
    (∃ p, parseByte s.cfg b s.parser = (p, none) ∧ rxParse b s = { s with parser := p }) ∨
    (∃ p f, parseByte s.cfg b s.parser = (p, some f) ∧ p.IsIdle ∧ rxParse b s = dispatch f { s with parser := p }) := by
  simp only [rxParse]
  split
  · exact .inl ⟨_, ‹_›, rfl⟩
  · exact .inr ⟨_, _, ‹_›, parseByte_frame_idle ‹_›, rfl⟩

/-- The least SOM that the scan finds lies in 1 .. idx-1 (R365). -/
theorem nextSom_range {buf : List Host.Cell} {idx j : Nat} (h : nextSom buf idx = some j) :
    1 ≤ j ∧ j < idx ∧ Memory.read buf j = som := by
  have h1 := List.find?_some h
  have h2 := List.mem_of_find?_eq_some h
  rw [List.mem_drop_iff_getElem] at h2
  obtain ⟨k, hk, e⟩ := h2
  simp at hk e
  exact ⟨by omega, by omega, by simpa using h1⟩

/-- `idx` passes of the check loop suffice: more fuel changes nothing (R366: the loop ends). -/
theorem checkLoop_fuel {cfg : Config} {n k : Nat} {p : Parser} (h : p.idx ≤ n) :
    checkLoop cfg (n + k) p = checkLoop cfg n p := by
  induction n generalizing p with
  | zero =>
    cases k with
    | zero => rfl
    | succ k => simp [checkLoop, show p.idx < 2 by omega]
  | succ n ih =>
    rw [show n + 1 + k = (n + k) + 1 by omega]
    simp only [checkLoop]
    split
    · rfl
    · split
      · rfl
      · split
        · rfl
        · split
          · rfl
          · split
            · rfl
            · rename_i hj
              obtain ⟨h1, h2, _⟩ := nextSom_range hj
              exact ih (by simp only; omega)

end Sys2Proof.Machine
end

