-- ==== Sys2Proof/Laws/Config.lean ====
section
/-! SUPPORT. What legality of a configuration gives (00_scope.md R8 and R9, 60_exceptions.md R517), one fact per rule. -/

namespace Sys2Proof.Config

theorem ite_some_eq_none {p : Prop} [Decidable p] {a : ConfigFlaw} {x : Option ConfigFlaw} :
    (if p then some a else x) = none ↔ ¬ p ∧ x = none := by
  by_cases h : p <;> simp [h]

/-- R517 admits a configuration exactly when it breaks none of the rules listed there. -/
theorem check_iff (c : Config) : c.check = none ↔
    hallTableOk c.tables.hall = true ∧ ((c.speedTicksFactor : Int) + 1) * 2 ^ c.speedShift < 2 ^ 31 ∧
    c.eMax * c.kp.natAbs < 2 ^ 31 ∧ c.eMax * c.ki.natAbs + c.iLimit < 2 ^ 31 ∧
    speedSpMax * c.kf.natAbs + c.kfo.natAbs < 2 ^ 31 ∧ (pwmInMax + 1) * 2 ^ c.pwmShift < 2 ^ 31 ∧
    (1 ≤ c.maxPhasePeriod ∧ c.maxPhasePeriod ≤ 65535 ∧ 2 * pwmMargin + 2 ≤ c.pwmRes) ∧
    c.tables.hallRevision = c.tables.blockRevision ∧
    (c.cmdCode.codes.Nodup ∧ c.cmdCode.ena = 3#8) := by
  simp only [check, ite_some_eq_none, not_not, Bool.not_eq_true', Bool.not_eq_false, Ne]
  simp only [and_true]

/-- The domains, one by one (R8, R105, R107, R131). -/
theorem inDomain_iff (c : Config) : c.inDomain = true ↔
    c.numbersOk = true ∧ c.resetsOk = true ∧ blockTableOk c.tables.block = true ∧ sineLutOk c.sineLut = true ∧
    c.rspCode.codes.Nodup ∧ c.rspCode.nor = 0#8 := by
  simp only [inDomain, rspCodeOk, Bool.and_eq_true, decide_eq_true_eq, beq_iff_eq]
  tauto

/-- The three reset parameters of a legal configuration (R8). -/
theorem Legal.resets {c : Config} (h : c.Legal) :
    c.stepThreshReset = 500#16 ∧ c.commModeReset = .block ∧ c.wdtReset = 0#16 := by
  obtain ⟨_, h, _⟩ := (inDomain_iff c).mp h.2
  simp only [resetsOk, Bool.and_eq_true, beq_iff_eq] at h
  exact ⟨h.1.1, h.1.2, h.2⟩

theorem Legal.rspNor {c : Config} (h : c.Legal) : c.rspCode.nor = 0#8 := by
  obtain ⟨_, _, _, _, _, h⟩ := (inDomain_iff c).mp h.2
  exact h

theorem Legal.cmdEna {c : Config} (h : c.Legal) : c.cmdCode.ena = 3#8 := by
  obtain ⟨_, _, _, _, _, _, _, _, _, h⟩ := (check_iff c).mp h.1
  exact h

theorem Legal.maxPhasePeriod_pos {c : Config} (h : c.Legal) : 1 ≤ c.maxPhasePeriod ∧ c.maxPhasePeriod ≤ 65535 := by
  obtain ⟨_, _, _, _, _, _, ⟨h1, h2, _⟩, _⟩ := (check_iff c).mp h.1
  exact ⟨h1, h2⟩

theorem Legal.pwmRes {c : Config} (h : c.Legal) : (22 : Int) ≤ c.pwmRes := by
  obtain ⟨_, _, _, _, _, _, ⟨_, _, h1⟩, _⟩ := (check_iff c).mp h.1
  simp only [pwmMargin] at h1
  omega

theorem Legal.sineNorm_pos {c : Config} (h : c.Legal) : 1 ≤ c.sineNorm := by
  obtain ⟨h, _⟩ := (inDomain_iff c).mp h.2
  simp only [numbersOk, Bool.and_eq_true, decide_eq_true_eq] at h
  omega

/-- The eight command codes are pairwise different (R130). -/
theorem Legal.cmdNodup {c : Config} (h : c.Legal) : c.cmdCode.codes.Nodup := by
  obtain ⟨_, _, _, _, _, _, _, _, h, _⟩ := (check_iff c).mp h.1
  exact h

/-- The nine response codes are pairwise different (R131). -/
theorem Legal.rspNodup {c : Config} (h : c.Legal) : c.rspCode.codes.Nodup := by
  obtain ⟨_, _, _, _, h, _⟩ := (inDomain_iff c).mp h.2
  exact h

/-- The row that BLOCK_COMMUTATE reads stands in the table of a legal configuration and has one 0, one +1 and one -1
(R105). -/
theorem Legal.blockRow {c : Config} (h : c.Legal) (s : Fin 6) :
    c.tables.block[s.val]? = some (Machine.blockRow c s) ∧ (Machine.blockRow c s).legal = true := by
  obtain ⟨_, _, h, _⟩ := (inDomain_iff c).mp h.2
  simp only [blockTableOk, Bool.and_eq_true, beq_iff_eq, List.all_eq_true] at h
  have hs : s.val < c.tables.block.length := by omega
  rw [Machine.blockRow, List.getD_eq_getElem _ _ hs]
  exact ⟨List.getElem?_eq_getElem hs, h.2 _ (List.getElem_mem hs)⟩

/-- The sine that a legal configuration gives an angle is the entry of SINE_LUT, within ±1000 (R107): the default of the
look-up does not matter. -/
theorem Legal.sine {c : Config} (h : c.Legal) (a d : Int) :
    Machine.sineLut c a = c.sineLut.getD (a % 360).toNat d ∧ -1000 ≤ Machine.sineLut c a ∧
      Machine.sineLut c a ≤ 1000 := by
  obtain ⟨_, _, _, h, _⟩ := (inDomain_iff c).mp h.2
  simp only [sineLutOk, Bool.and_eq_true, beq_iff_eq, List.all_eq_true, decide_eq_true_eq] at h
  have hk : (a % 360).toNat < c.sineLut.length := by omega
  rw [Machine.sineLut, List.getD_eq_getElem _ _ hk, List.getD_eq_getElem _ _ hk]
  exact ⟨rfl, h.2 _ (List.getElem_mem hk)⟩

end Sys2Proof.Config
end

