-- ==== Sys2Proof/Laws/Memory.lean ====
section
/-! SUPPORT. The laws of the frame buffer (20_memory.md R80): every operation keeps the canonical form, a byte reads back
as it was written, a write leaves every other byte alone, and equal contents are equal buffers. -/

namespace Sys2Proof.Machine.Memory

@[simp] theorem lookup_nil (a : Nat) : lookup [] a = 0#8 := rfl

/-- Within the buffer a read gives the listed byte. -/
theorem read_of_lt {m : List Host.Cell} {a : Nat} (h : a < bufSize) : read m a = lookup m a := if_pos h

/-- Beyond the buffer a read gives the free value, whatever the buffer holds (log 13). -/
theorem read_of_le {m : List Host.Cell} {a : Nat} (h : bufSize ≤ a) : read m a = Config.beyondBuffer a :=
  if_neg (by omega)

theorem write_of_lt {m : List Host.Cell} {a : Nat} {b : Byte} (h : a < bufSize) : write m a b = insert m a b := if_pos h

/-- Beyond the buffer nothing is stored (R80, log 13). -/
theorem write_of_le {m : List Host.Cell} {a : Nat} {b : Byte} (h : bufSize ≤ a) : write m a b = m := if_neg (by omega)

/-- The empty list is the buffer of 17 bytes 0x00 (R38). -/
theorem read_nil {a : Nat} (h : a < bufSize) : read [] a = 0#8 := read_of_lt h

theorem wfFrom_mono {lo lo' : Nat} {m : List Host.Cell} (h : wfFrom lo m = true) (hl : lo' ≤ lo) :
    wfFrom lo' m = true := by
  cases m with
  | nil => rfl
  | cons c rest =>
    obtain ⟨k, v⟩ := c
    simp only [wfFrom, Bool.and_eq_true, decide_eq_true_eq] at h ⊢
    exact ⟨⟨⟨by omega, h.1.1.2⟩, h.1.2⟩, h.2⟩

/-- An offset below the first listed one holds 0x00. -/
theorem lookup_of_lt {lo a : Nat} {m : List Host.Cell} (h : wfFrom lo m = true) (ha : a < lo) : lookup m a = 0#8 := by
  induction m generalizing lo with
  | nil => rfl
  | cons c rest ih =>
    obtain ⟨k, v⟩ := c
    simp only [wfFrom, Bool.and_eq_true, decide_eq_true_eq] at h
    have hk : k ≠ a := by omega
    simp only [lookup, hk, if_false]
    exact ih h.2 (by omega)

/-- No byte beyond the buffer is listed. -/
theorem lookup_of_size_le {lo a : Nat} {m : List Host.Cell} (h : wfFrom lo m = true) (ha : bufSize ≤ a) :
    lookup m a = 0#8 := by
  induction m generalizing lo with
  | nil => rfl
  | cons c rest ih =>
    obtain ⟨k, v⟩ := c
    simp only [wfFrom, Bool.and_eq_true, decide_eq_true_eq] at h
    have hk : k ≠ a := by omega
    simp only [lookup, hk, if_false]
    exact ih h.2

theorem wfFrom_insert {lo a : Nat} {m : List Host.Cell} (b : Byte) (h : wfFrom lo m = true) (hlo : lo ≤ a)
    (ha : a < bufSize) : wfFrom lo (insert m a b) = true := by
  induction m generalizing lo with
  | nil => by_cases hb : b = 0#8 <;> simp [insert, wfFrom, hb, hlo, ha]
  | cons c rest ih =>
    obtain ⟨k, v⟩ := c
    simp only [wfFrom, Bool.and_eq_true, decide_eq_true_eq] at h
    obtain ⟨⟨⟨h1, h2⟩, h3⟩, h4⟩ := h
    simp only [insert]
    split
    · split
      · simp [wfFrom, h1, h2, h4]; simpa using h3
      · rename_i hak hb
        simp only [wfFrom, Bool.and_eq_true, decide_eq_true_eq]
        exact ⟨⟨⟨hlo, ha⟩, by simpa using hb⟩, ⟨⟨⟨by omega, h2⟩, h3⟩, h4⟩⟩
    · split
      · split
        · exact wfFrom_mono h4 (by omega)
        · rename_i hne heq hb
          simp only [wfFrom, Bool.and_eq_true, decide_eq_true_eq]
          exact ⟨⟨⟨hlo, ha⟩, by simpa using hb⟩, by subst heq; exact h4⟩
      · simp only [wfFrom, Bool.and_eq_true, decide_eq_true_eq]
        exact ⟨⟨⟨h1, h2⟩, h3⟩, ih h4 (by omega)⟩

/-- A store keeps the canonical form. -/
theorem wf_write {m : List Host.Cell} (a : Nat) (b : Byte) (h : wf m = true) : wf (write m a b) = true := by
  by_cases ha : a < bufSize
  · rw [write_of_lt ha]; exact wfFrom_insert b h (Nat.zero_le a) ha
  · rw [write_of_le (by omega)]; exact h

theorem lookup_insert {lo a : Nat} {m : List Host.Cell} (b : Byte) (h : wfFrom lo m = true) (c : Nat) :
    lookup (insert m a b) c = if c = a then b else lookup m c := by
  induction m generalizing lo with
  | nil =>
    by_cases hb : b = 0#8
    · simp [insert, hb]
    · by_cases hc : c = a
      · simp [insert, hb, lookup, hc]
      · simp [insert, hb, lookup, hc, Ne.symm hc]
  | cons e rest ih =>
    obtain ⟨k, v⟩ := e
    simp only [wfFrom, Bool.and_eq_true, decide_eq_true_eq] at h
    obtain ⟨_, h4⟩ := h
    have hrest : a ≤ k → lookup rest a = 0#8 := fun hle => lookup_of_lt h4 (by omega)
    simp only [insert]
    by_cases hak : a < k
    · by_cases hb : b = 0#8
      · by_cases hc : c = a
        · have : k ≠ a := by omega
          simp [hak, hb, hc, lookup, this, hrest (by omega)]
        · simp [hak, hb, hc]
      · by_cases hc : c = a
        · simp [hak, hb, hc, lookup]
        · have : a ≠ c := fun e => hc e.symm
          simp [hak, hb, hc, lookup, this]
    · by_cases heq : a = k
      · subst heq
        by_cases hb : b = 0#8
        · by_cases hc : c = a
          · simp [hb, hc, hrest]
          · have : a ≠ c := fun e => hc e.symm
            simp [hb, hc, lookup, this]
        · by_cases hc : c = a
          · simp [hb, hc, lookup]
          · have : a ≠ c := fun e => hc e.symm
            simp [hb, hc, lookup, this]
      · simp only [hak, heq, if_false, lookup]
        by_cases hkc : k = c
        · have : c ≠ a := by omega
          simp [hkc, this]
        · simp only [hkc, if_false]
          exact ih h4

/-- Reading after a store within the buffer: the stored byte at its offset, every other byte as before. -/
theorem read_write {a : Nat} {m : List Host.Cell} (b : Byte) (h : wf m = true) (ha : a < bufSize) (c : Nat) :
    read (write m a b) c = if c = a then b else read m c := by
  rw [write_of_lt ha]
  by_cases hc : c < bufSize
  · rw [read_of_lt hc, read_of_lt hc, lookup_insert b h]
  · rw [read_of_le (by omega), read_of_le (by omega), if_neg (by omega)]

theorem ext_from {lo : Nat} {m m' : List Host.Cell} (h : wfFrom lo m = true) (h' : wfFrom lo m' = true)
    (e : ∀ a, lookup m a = lookup m' a) : m = m' := by
  induction m generalizing lo m' with
  | nil =>
    cases m' with
    | nil => rfl
    | cons c rest =>
      obtain ⟨k, v⟩ := c
      simp only [wfFrom, Bool.and_eq_true, decide_eq_true_eq] at h'
      have := e k
      simp [lookup] at this
      simp [← this] at h'
  | cons c rest ih =>
    obtain ⟨k, v⟩ := c
    have hw := h
    simp only [wfFrom, Bool.and_eq_true, decide_eq_true_eq] at h
    cases m' with
    | nil =>
      have := e k
      simp [lookup] at this
      simp [this] at h
    | cons c' rest' =>
      obtain ⟨k', v'⟩ := c'
      have hw' := h'
      simp only [wfFrom, Bool.and_eq_true, decide_eq_true_eq] at h'
      have hv : v ≠ 0#8 := by simpa using h.1.2
      have hv' : v' ≠ 0#8 := by simpa using h'.1.2
      have hkk : k = k' := by
        rcases Nat.lt_trichotomy k k' with hlt | heq | hgt
        · have := e k
          have hne : k' ≠ k := by omega
          simp only [lookup, if_true, hne, if_false] at this
          exact absurd (this.trans (lookup_of_lt h'.2 (by omega))) hv
        · exact heq
        · have := e k'
          have hne : k ≠ k' := by omega
          simp only [lookup, if_true, hne, if_false] at this
          exact absurd (this.symm.trans (lookup_of_lt h.2 (by omega))) hv'
      subst hkk
      have hvv : v = v' := by simpa [lookup] using e k
      subst hvv
      have : rest = rest' := by
        refine ih h.2 h'.2 (fun a => ?_)
        by_cases hka : k = a
        · subst hka
          rw [lookup_of_lt h.2 (by omega), lookup_of_lt h'.2 (by omega)]
        · simpa [lookup, hka] using e a
      rw [this]

/-- Two buffers in canonical form with the same 17 bytes are the same list. -/
theorem ext {m m' : List Host.Cell} (h : wf m = true) (h' : wf m' = true)
    (e : ∀ a < bufSize, read m a = read m' a) : m = m' := by
  refine ext_from h h' (fun a => ?_)
  by_cases ha : a < bufSize
  · rw [← read_of_lt ha, ← read_of_lt ha]; exact e a ha
  · rw [lookup_of_size_le h (by omega), lookup_of_size_le h' (by omega)]

/-- Storing the byte that an offset already holds changes nothing. -/
theorem write_read {m : List Host.Cell} {a : Nat} (h : wf m = true) (ha : a < bufSize) : write m a (read m a) = m := by
  refine ext (wf_write _ _ h) h (fun c _ => ?_)
  rw [read_write _ h ha]
  split
  · rename_i e; rw [e]
  · rfl

/-- The shift, written as one more store after the shift of one byte less. -/
theorem shiftLeft_succ (m : List Host.Cell) (j n : Nat) :
    shiftLeft m j (n + 1) = write (shiftLeft m j n) n (read (shiftLeft m j n) (n + j)) := by
  simp [shiftLeft, List.range_succ]

@[simp] theorem shiftLeft_zero (m : List Host.Cell) (j : Nat) : shiftLeft m j 0 = m := rfl

/-- The shift keeps the canonical form. -/
theorem wf_shiftLeft {m : List Host.Cell} (j n : Nat) (h : wf m = true) : wf (shiftLeft m j n) = true := by
  induction n with
  | zero => exact h
  | succ n ih =>
    rw [shiftLeft_succ]
    exact wf_write _ _ ih

/-- What a left shift by j ≥ 1 leaves: the n bytes from offset j at the front, every other byte as before. -/
theorem read_shiftLeft {m : List Host.Cell} {j : Nat} (n : Nat) (h : wf m = true) (hn : n ≤ bufSize) (hj : 1 ≤ j)
    (a : Nat) : read (shiftLeft m j n) a = if a < n then read m (a + j) else read m a := by
  induction n generalizing a with
  | zero => simp
  | succ n ih =>
    have ih' := fun c => ih (by omega) c
    rw [shiftLeft_succ, read_write _ (wf_shiftLeft j n h) (by omega), ih', ih']
    by_cases han : a = n
    · subst han
      have : ¬ a + j < a := by omega
      simp [this]
    · have : (a < n + 1) ↔ (a < n) := by omega
      simp [han, this]

@[simp] theorem length_slice (m : List Host.Cell) (lo n : Nat) : (slice m lo n).length = n := by simp [slice]

/-- A slice depends only on the bytes it reads. -/
theorem slice_congr {m m' : List Host.Cell} {lo n : Nat} (h : ∀ a, lo ≤ a → a < lo + n → read m a = read m' a) :
    slice m lo n = slice m' lo n := by
  simp only [slice]
  refine List.map_congr_left (fun k hk => ?_)
  have := List.mem_range.mp hk
  exact h _ (by omega) (by omega)

/-- The buffer after RESET is in canonical form (R38). -/
theorem wf_reset : wf Parser.reset.buf = true := rfl

end Sys2Proof.Machine.Memory
end

