-- ==== Sys2Proof/Laws/PerInstr.lean ====
section
/-! SUPPORT. Facts about every operation as syntax, one lemma per constructor of Instr. -/

namespace Sys2Proof.Laws.EncodeFormat

/-- The operation's word begins with one of the four formats; in particular it is not empty, so that `issue` can hold
it. -/
def Statement (i : Instr) : Prop := ∀ cfg : Config, ∃ fmt rest, encode cfg i = fmt :: rest ∧ fmt.toNat < 4

theorem of_cons {i : Instr} (fmt : Byte) (h : fmt.toNat < 4) (e : ∀ cfg, ∃ rest, encode cfg i = fmt :: rest) :
    Statement i :=
  fun cfg => let ⟨rest, hr⟩ := e cfg; ⟨fmt, rest, hr, h⟩

theorem reset : Statement .reset :=
  of_cons fmtPorts (by decide) fun _ => ⟨_, rfl⟩

theorem ctrlTick (h : BitVec 3) (oc : Bool) : Statement (.ctrlTick h oc) :=
  of_cons fmtPorts (by decide) fun _ => ⟨_, rfl⟩

theorem rxByte (b : Byte) (v u : Half) : Statement (.rxByte b v u) :=
  of_cons fmtPorts (by decide) fun _ => ⟨_, rfl⟩

theorem wdtTick : Statement .wdtTick :=
  of_cons fmtPorts (by decide) fun _ => ⟨_, rfl⟩

theorem hallStage (c : BitVec 3) : Statement (.hallStage c) :=
  of_cons fmtSub (by decide) fun _ => ⟨_, rfl⟩

theorem hallDecode (c : BitVec 3) : Statement (.hallDecode c) :=
  of_cons fmtSub (by decide) fun _ => ⟨_, rfl⟩

theorem speedStage : Statement .speedStage :=
  of_cons fmtSub (by decide) fun _ => ⟨_, rfl⟩

theorem speedUpdate (raw : Word32) : Statement (.speedUpdate raw) :=
  of_cons fmtSub (by decide) fun _ => ⟨_, rfl⟩

theorem ctrlStage : Statement .ctrlStage :=
  of_cons fmtSub (by decide) fun _ => ⟨_, rfl⟩

theorem stepperStep : Statement .stepperStep :=
  of_cons fmtSub (by decide) fun _ => ⟨_, rfl⟩

theorem pidfEval : Statement .pidfEval :=
  of_cons fmtSub (by decide) fun _ => ⟨_, rfl⟩

theorem pwmFilter (x : Half) : Statement (.pwmFilter x) :=
  of_cons fmtSub (by decide) fun _ => ⟨_, rfl⟩

theorem synthStage : Statement .synthStage :=
  of_cons fmtSub (by decide) fun _ => ⟨_, rfl⟩

theorem blockCommutate (pwm : Half) (k : Fin 6) : Statement (.blockCommutate pwm k) :=
  of_cons fmtSub (by decide) fun _ => ⟨_, rfl⟩

theorem sineCommutate (m a : Half) : Statement (.sineCommutate m a) :=
  of_cons fmtSub (by decide) fun _ => ⟨_, rfl⟩

theorem pulseClamp (x : Word32) : Statement (.pulseClamp x) :=
  of_cons fmtSub (by decide) fun _ => ⟨_, rfl⟩

theorem setPower (v : Half) : Statement (.setPower v) :=
  of_cons fmtSub (by decide) fun _ => ⟨_, rfl⟩

theorem setSpeed (v : Half) : Statement (.setSpeed v) :=
  of_cons fmtSub (by decide) fun _ => ⟨_, rfl⟩

theorem rxParse (b : Byte) : Statement (.rxParse b) :=
  of_cons fmtSub (by decide) fun _ => ⟨_, rfl⟩

theorem crc16 (bytes : List Byte) : Statement (.crc16 bytes) :=
  of_cons fmtSub (by decide) fun _ => ⟨_, rfl⟩

theorem frameCheck (len : Fin 10) : Statement (.frameCheck len) :=
  of_cons fmtSub (by decide) fun _ => ⟨_, rfl⟩

theorem dispatch (f : Frame) : Statement (.dispatch f) :=
  of_cons fmtSub (by decide) fun _ => ⟨_, rfl⟩

theorem reply (seq : BitVec 4) (cid rid : Byte) : Statement (.reply seq cid rid) :=
  of_cons fmtSub (by decide) fun _ => ⟨_, rfl⟩

theorem expire : Statement .expire :=
  of_cons fmtSub (by decide) fun _ => ⟨_, rfl⟩

theorem ena (pl : List Byte) : Statement (.ena pl) :=
  of_cons fmtCommand (by decide) fun _ => ⟨_, rfl⟩

theorem dis (pl : List Byte) : Statement (.dis pl) :=
  of_cons fmtCommand (by decide) fun _ => ⟨_, rfl⟩

theorem pow (pl : List Byte) : Statement (.pow pl) :=
  of_cons fmtCommand (by decide) fun _ => ⟨_, rfl⟩

theorem dog (pl : List Byte) : Statement (.dog pl) :=
  of_cons fmtCommand (by decide) fun _ => ⟨_, rfl⟩

theorem mod (pl : List Byte) : Statement (.mod pl) :=
  of_cons fmtCommand (by decide) fun _ => ⟨_, rfl⟩

theorem res (pl : List Byte) : Statement (.res pl) :=
  of_cons fmtCommand (by decide) fun _ => ⟨_, rfl⟩

theorem spe (pl : List Byte) : Statement (.spe pl) :=
  of_cons fmtCommand (by decide) fun _ => ⟨_, rfl⟩

theorem xxx (pl : List Byte) : Statement (.xxx pl) :=
  of_cons fmtCommand (by decide) fun _ => ⟨_, rfl⟩

theorem unknownCmd (cid : Byte) (pl : List Byte) : Statement (.unknownCmd cid pl) :=
  of_cons fmtCommand (by decide) fun _ => ⟨_, rfl⟩

theorem rspNor (seq : BitVec 4) (cid : Byte) : Statement (.rspNor seq cid) :=
  of_cons fmtResponse (by decide) fun _ => ⟨_, rfl⟩

theorem rspSpeed (seq : BitVec 4) (cid : Byte) : Statement (.rspSpeed seq cid) :=
  of_cons fmtResponse (by decide) fun _ => ⟨_, rfl⟩

theorem rspPosition (seq : BitVec 4) (cid : Byte) : Statement (.rspPosition seq cid) :=
  of_cons fmtResponse (by decide) fun _ => ⟨_, rfl⟩

theorem rspBattery (seq : BitVec 4) (cid : Byte) : Statement (.rspBattery seq cid) :=
  of_cons fmtResponse (by decide) fun _ => ⟨_, rfl⟩

theorem rspCurrent (seq : BitVec 4) (cid : Byte) : Statement (.rspCurrent seq cid) :=
  of_cons fmtResponse (by decide) fun _ => ⟨_, rfl⟩

theorem rspPwm (seq : BitVec 4) (cid : Byte) : Statement (.rspPwm seq cid) :=
  of_cons fmtResponse (by decide) fun _ => ⟨_, rfl⟩

theorem rspWatchdog (seq : BitVec 4) (cid : Byte) : Statement (.rspWatchdog seq cid) :=
  of_cons fmtResponse (by decide) fun _ => ⟨_, rfl⟩

theorem rspPidf (seq : BitVec 4) (cid : Byte) : Statement (.rspPidf seq cid) :=
  of_cons fmtResponse (by decide) fun _ => ⟨_, rfl⟩

theorem rspTelemetry (seq : BitVec 4) (cid : Byte) : Statement (.rspTelemetry seq cid) :=
  of_cons fmtResponse (by decide) fun _ => ⟨_, rfl⟩

theorem rspUnknown (seq : BitVec 4) (cid rid : Byte) : Statement (.rspUnknown seq cid rid) :=
  of_cons fmtResponse (by decide) fun _ => ⟨_, rfl⟩

end Sys2Proof.Laws.EncodeFormat
end

