-- ==== Sys2Proof/Laws/Step.lean ====
section
/-! SUPPORT. What a step can do, said once: an issued word, one strobe of the ports, or nothing. -/

namespace Sys2Proof.Machine

theorem fetch_issue {s : State} (h : s.issue ≠ []) : fetch s = (some s.issue, { s with issue := [] }) := by
  cases hi : s.issue with
  | nil => exact absurd hi h
  | cons b bs => simp [fetch, hi]

/-- With nothing issued, a step looks at the ports (R90). -/
theorem fetch_ports {s : State} (h : s.issue = []) :
    fetch s = match takeNext (arrive s) with
      | some (p, t) => (some (encodePorts p), t)
      | none => (none, arrive s) := by
  cases hn : takeNext (arrive s) <;> simp [fetch, h, hn]

theorem step_issue {s : State} (h : s.issue ≠ []) : step s = runWord s.issue { s with issue := [] } := by
  simp [step, fetch_issue h]

/-- With nothing issued: the step of a sample with a strobe is its transaction, and without one the levels arrive and
the block holds its state (R518). -/
theorem step_ports {s : State} (h : s.issue = []) :
    (∃ p t, takeNext (arrive s) = some (p, t) ∧ step s = runWord (encodePorts p) t) ∨
    (takeNext (arrive s) = none ∧ step s = .next (arrive s)) := by
  simp only [step, fetch_ports h]
  cases hn : takeNext (arrive s) with
  | none => exact .inr ⟨rfl, rfl⟩
  | some x => exact .inl ⟨x.1, x.2, rfl, rfl⟩

theorem runWord_ok {word : List Byte} {s : State} {i : Instr} (h : decode s.cfg word = .ok i) :
    runWord word s = exec i s := by
  simp [runWord, h]

theorem runWord_error {word : List Byte} {s : State} {e : DecodeError} (h : decode s.cfg word = .error e) :
    runWord word s = .refused (.undecodable e) := by
  simp [runWord, h]

/-- The arrival of a sample changes the ports and the environment's samples only. -/
theorem arrive_cases (s : State) :
    arrive s = s ∨ (idlePorts s.ports = true ∧ ∃ p rest, s.inputs = p :: rest ∧
      arrive s = { s with ports := p, inputs := rest }) := by
  simp only [arrive]
  split
  · split
    · exact .inl rfl
    · exact .inr ⟨‹_›, _, _, ‹_›, rfl⟩
  · exact .inl rfl

@[simp] theorem dropStrobes_takeStrobe (p : Ports) (t : Strobe) : dropStrobes (takeStrobe p t) = dropStrobes p := by
  cases t <;> rfl

/-- Taking a strobe changes the strobes of the ports and the model's free-choice counter only. -/
theorem takeNext_frame {s t : State} {p : Ports} (h : takeNext s = some (p, t)) :
    t = { s with ports := t.ports, orderCount := t.orderCount } ∧ dropStrobes t.ports = dropStrobes s.ports := by
  simp only [takeNext] at h
  split at h
  · split at h
    · cases h; exact ⟨rfl, rfl⟩
    · cases h
  · cases h; exact ⟨rfl, dropStrobes_takeStrobe _ _⟩
  · cases h; exact ⟨rfl, dropStrobes_takeStrobe _ _⟩

end Sys2Proof.Machine
end

