-- ==== Sys2Proof/Tests/Slice0.lean ====
section
/-! SUPPORT. Our own tests: ill-formed terms, decoded words written out from the spec's encodings, one-step tests whose
expected values are the vectors of 95_test_vectors.md and 43_speed_controller.md R328, and for every obligation with
hypotheses a concrete state that meets them together (`witness_<obligation>`). -/

namespace Sys2Proof.Tests

-- One theorem at a time: each test's kernel evaluation waits for the one before it, and a waiting thread holds its stack.
set_option Elab.async false

open Sys2Proof Sys2Proof.Machine

/-! ### Helpers -/

/-- The configuration of every vector (95_test_vectors.md). -/
def tp : Config := Config.testProfile

/-- A payload of ten bytes: one too many (R120). -/
def tooLong : List Byte := List.replicate 10 0#8

/-- The next state, if the outcome is one, satisfies the test. -/
def nextIs (o : Out) (p : State → Bool) : Bool :=
  match o with
  | .next t => p t
  | .fault _ => false
  | .refused _ => false

/-- The outcome is this refusal. -/
def refuses (o : Out) (r : Refusal) : Bool :=
  match o with
  | .next _ => false
  | .fault _ => false
  | .refused q => q == r

/-- The word decodes to the operation, under TP. -/
def decodes (w : List Byte) (i : Instr) : Bool :=
  match decode tp w with
  | .ok j => j == i
  | .error _ => false

/-- The word is refused for the reason. -/
def undecodable (w : List Byte) (e : DecodeError) : Bool :=
  match decode tp w with
  | .ok _ => false
  | .error d => d == e

/-- The bytes of a frame in an empty buffer. -/
def bufOf (bytes : List Byte) : List Host.Cell :=
  (List.range bytes.length).foldl (fun m k => Memory.write m k (bytes.getD k 0#8)) []

/-- The RESET state with a parser that holds the bytes. -/
def holding (bytes : List Byte) : State :=
  { State.reset with parser := { recording := true, idx := bytes.length, buf := bufOf bytes } }

/-- The RESET state with sector k valid. -/
def atSector (k : Fin 6) : State :=
  { State.reset with hall := { HallRegs.reset with sector := k, sectorValid := true } }

/-- The RESET state with other controller registers. -/
def withCtrl (r : CtrlRegs) : State := { State.reset with ctrl := r }

/-- Watchdog armed at 3, `n` ticks left. -/
def armed (n : Half) : State :=
  { State.reset with
    conf := { ConfRegs.reset tp with wdtInterval := 3#16 }
    safety := { SafetyRegs.reset with enable := true, wdtCnt := n } }

/-- The ENA frame of 95_test_vectors.md. -/
def enaFrame : List Byte := [0x2F#8, 0x00#8, 0x00#8, 0x03#8, 0x00#8, 0x1E#8, 0x38#8, 0x0A#8]

/-- The frame of V13d: ENA with a wrong CRC. -/
def badFrame : List Byte := [0x2F#8, 0x00#8, 0x00#8, 0x03#8, 0x00#8, 0x12#8, 0x34#8, 0x0A#8]

/-- The operands that the frame ENA carries. -/
def ena : Frame := { seq := 0#4, dest := 0#4, cid := 3#8, rid := 0#8, payload := [] }

/-! ### Well-formedness: every check refuses an ill-formed term, and admits one at its boundary -/

theorem test_wf_refuses_pwm_filter_above_1000 : (Instr.pwmFilter 1001#16).wf tp = false := by decide +kernel
theorem test_wf_refuses_pwm_filter_below_minus_1000 :
    (Instr.pwmFilter (BitVec.ofInt 16 (-1001))).wf tp = false := by decide +kernel
theorem test_wf_refuses_block_commutate_above_1000 : (Instr.blockCommutate 1001#16 0).wf tp = false := by decide +kernel
theorem test_wf_refuses_long_frame :
    (Instr.dispatch { ena with payload := tooLong }).wf tp = false := by decide +kernel
theorem test_wf_refuses_long_payloads :
    [Instr.ena tooLong, .dis tooLong, .pow tooLong, .dog tooLong, .mod tooLong, .res tooLong, .spe tooLong,
      .xxx tooLong, .unknownCmd 0x55#8 tooLong].all (fun i => !i.wf tp) = true := by decide +kernel
theorem test_wf_refuses_short_payloads :
    [Instr.pow [1#8], .dog [1#8], .mod [1#8, 2#8], .spe []].all (fun i => !i.wf tp) = true := by decide +kernel
theorem test_wf_refuses_mod_waveform_above_one : (Instr.mod [2#8, 0x2C#8, 1#8]).wf tp = false := by decide +kernel
theorem test_wf_refuses_unknown_command_of_a_known_id : (Instr.unknownCmd 3#8 []).wf tp = false := by decide +kernel
theorem test_wf_refuses_unknown_response_of_a_known_id : (Instr.rspUnknown 0#4 3#8 8#8).wf tp = false := by
  decide +kernel
theorem test_wf_admits_boundaries :
    [Instr.pwmFilter (BitVec.ofInt 16 (-1000)), .blockCommutate 1000#16 5, .frameCheck 9,
      .unknownCmd 5#8 [1#8], .unknownCmd 7#8 [2#8, 0x2C#8, 1#8], .mod [1#8, 0#8, 0#8], .rspUnknown 1#4 4#8 9#8,
      .ena (List.replicate 9 0#8)].all (fun i => i.wf tp) = true := by decide +kernel

/-- The spec's TP is admitted and in its domains, and each rule of R517 refuses a configuration that breaks it. -/
theorem test_tp_is_legal : tp.Legal := by decide +kernel
theorem test_flaws_are_named :
    [({ tp with speedTicksFactor := 16777216 }, ConfigFlaw.pb1),
      ({ tp with kp := 30000 }, .pb2), ({ tp with iLimit := 2147483647 }, .pb3), ({ tp with kf := 500000 }, .pb4),
      ({ tp with pwmShift := 22 }, .pb5), ({ tp with maxPhasePeriod := 0 }, .pb6), ({ tp with pwmRes := 21 }, .pb6),
      ({ tp with tables := { tp.tables with hall := [7, 0, 2, 1, 4, 5, 5, 7] } }, .hallTable),
      ({ tp with tables := { tp.tables with blockRevision := 1 } }, .tablesUnmatched),
      ({ tp with cmdCode := { tp.cmdCode with ena := 11#8 } }, .cmdCode),
      ({ tp with cmdCode := { tp.cmdCode with dis := 3#8 } }, .cmdCode)].all
        (fun x => x.1.check == some x.2) = true := by decide +kernel

/-- What R517 does not list is not refused: a large PWM_RES (R9 has no upper bound), parameters outside their domain. -/
theorem test_not_refused :
    [{ tp with pwmRes := 70000 }, { tp with sineNorm := 0 }, { tp with sineLut := [] },
      { tp with rspCode := { tp.rspCode with pwm := 1#8 } }, { tp with stepThreshReset := 300#16 }].all
        (fun c => c.check == none) = true := by decide +kernel
theorem test_domains :
    [{ tp with sineNorm := 0 }, { tp with phaseAdv := 360 }, { tp with speedTicksFactor := 0 },
      { tp with speedShift := 6 }, { tp with pwmShift := 16 }, { tp with sineLut := [] },
      { tp with tables := { tp.tables with block := [] } }, { tp with rspCode := { tp.rspCode with pwm := 1#8 } },
      { tp with stepThreshReset := 300#16 }, { tp with commModeReset := .sine }, { tp with wdtReset := 1#16 }].all
        (fun c => !c.inDomain) = true := by decide +kernel

/-! ### Decoding: words written out from the spec's encodings -/

/-- Port words (R30): `rst` is bit 0, `ctrl_tick` bit 1, `hall` bits 4..2, `rx_valid` bit 5, `wdt_tick` bit 6,
`overcurrent` bit 7; then rx_byte, vbat and ibus, low byte first. -/
theorem test_decode_transactions :
    [([0#8, 0b00000001#8, 0#8, 0#8, 0#8, 0#8, 0#8], Instr.reset),
      ([0#8, 0b00000110#8, 0#8, 0#8, 0#8, 0#8, 0#8], .ctrlTick 0b001#3 false),
      ([0#8, 0b10011010#8, 0#8, 0#8, 0#8, 0#8, 0#8], .ctrlTick 0b110#3 true),
      ([0#8, 0b00100000#8, 0x0A#8, 0x42#8, 0x0E#8, 0x88#8, 0xFF#8],
        .rxByte 0x0A#8 3650#16 (BitVec.ofInt 16 (-120))),
      ([0#8, 0b01000000#8, 0#8, 0#8, 0#8, 0#8, 0#8], .wdtTick)].all (fun x => decodes x.1 x.2) = true := by
  decide +kernel

theorem test_decode_sub_operations :
    [([1#8, 4#8, 6#8], Instr.hallStage 0b110#3), ([1#8, 5#8, 1#8], .hallDecode 0b001#3), ([1#8, 6#8], .speedStage),
      ([1#8, 7#8, 0x30#8, 0xF8#8, 0xFF#8, 0xFF#8], .speedUpdate (BitVec.ofInt 32 (-2000))), ([1#8, 8#8], .ctrlStage),
      ([1#8, 9#8], .stepperStep), ([1#8, 10#8], .pidfEval), ([1#8, 11#8, 0xF8#8, 0x02#8], .pwmFilter 760#16),
      ([1#8, 12#8], .synthStage), ([1#8, 13#8, 0xE8#8, 0x03#8, 5#8], .blockCommutate 1000#16 5),
      ([1#8, 14#8, 0xE8#8, 0x03#8, 0xE2#8, 0xFF#8], .sineCommutate 1000#16 (BitVec.ofInt 16 (-30))),
      ([1#8, 15#8, 0xA4#8, 0xFB#8, 0xFF#8, 0xFF#8], .pulseClamp (BitVec.ofInt 32 (-1116))),
      ([1#8, 16#8, 0xB8#8, 0x0B#8], .setPower 3000#16), ([1#8, 17#8, 0x00#8, 0x80#8], .setSpeed 0x8000#16),
      ([1#8, 18#8, 0x2F#8], .rxParse 0x2F#8), ([1#8, 19#8, 0x2F#8, 0x00#8], .crc16 [0x2F#8, 0x00#8]),
      ([1#8, 20#8, 9#8], .frameCheck 9), (1#8 :: 21#8 :: enaFrame, .dispatch ena),
      ([1#8, 22#8, 0x06#8, 0x77#8, 0x07#8], .reply 6#4 0x77#8 7#8), ([1#8, 23#8], .expire)].all
        (fun x => decodes x.1 x.2) = true := by decide +kernel

/-- The cmdId byte of R130 and the payload of the frame table. -/
theorem test_decode_commands :
    [([2#8, 3#8], Instr.ena []), ([2#8, 4#8], .dis []), ([2#8, 5#8, 0x90#8, 0x01#8], .pow [0x90#8, 0x01#8]),
      ([2#8, 6#8, 0xE8#8, 0x03#8], .dog [0xE8#8, 0x03#8]),
      ([2#8, 7#8, 0x01#8, 0x2C#8, 0x01#8], .mod [0x01#8, 0x2C#8, 0x01#8]), ([2#8, 8#8], .res []),
      ([2#8, 9#8, 0x9C#8, 0xFF#8], .spe [0x9C#8, 0xFF#8]), ([2#8, 10#8], .xxx []),
      ([2#8, 0x55#8], .unknownCmd 0x55#8 []), ([2#8, 5#8, 0x20#8], .unknownCmd 5#8 [0x20#8]),
      ([2#8, 7#8, 0x02#8, 0x2C#8, 0x01#8], .unknownCmd 7#8 [0x02#8, 0x2C#8, 0x01#8])].all
        (fun x => decodes x.1 x.2) = true := by decide +kernel

/-- The rspId byte of R131, then the seq and the cmdId to copy. -/
theorem test_decode_responses :
    [([3#8, 0#8, 0#8, 3#8], Instr.rspNor 0#4 3#8), ([3#8, 1#8, 5#8, 3#8], .rspSpeed 5#4 3#8),
      ([3#8, 2#8, 3#8, 0x55#8], .rspPosition 3#4 0x55#8), ([3#8, 3#8, 2#8, 4#8], .rspBattery 2#4 4#8),
      ([3#8, 4#8, 2#8, 4#8], .rspCurrent 2#4 4#8), ([3#8, 5#8, 0#8, 5#8], .rspPwm 0#4 5#8),
      ([3#8, 6#8, 4#8, 6#8], .rspWatchdog 4#4 6#8), ([3#8, 7#8, 6#8, 0x77#8], .rspPidf 6#4 0x77#8),
      ([3#8, 8#8, 0#8, 10#8], .rspTelemetry 0#4 10#8), ([3#8, 0x20#8, 1#8, 4#8], .rspUnknown 1#4 4#8 0x20#8)].all
        (fun x => decodes x.1 x.2) = true := by decide +kernel

/-- What stands for no operation is refused by name. -/
theorem test_decode_refuses :
    [([], DecodeError.empty), ([4#8], .unknownFormat), ([0#8, 0#8, 0#8, 0#8, 0#8, 0#8, 0#8], .noStrobe),
      ([0#8, 3#8, 0#8, 0#8, 0#8, 0#8, 0#8], .severalStrobes), ([1#8, 24#8], .unknownOperation),
      ([1#8, 0#8], .unknownOperation), ([1#8, 4#8, 8#8], .badOperand), ([1#8, 20#8, 10#8], .badOperand), ([1#8, 13#8, 0#8, 0#8, 6#8], .badOperand),
      ([1#8, 22#8, 16#8, 0#8, 0#8], .badOperand), (2#8 :: 3#8 :: tooLong, .badOperand),
      (1#8 :: 21#8 :: badFrame, .badFrame)].all (fun x => undecodable x.1 x.2) = true := by decide +kernel

/-- The words of spec/opcode_table.json: a cmdId byte where CMD_CODE lists it, else a rspId byte where RSP_CODE does. -/
theorem test_table_words :
    [(0, Instr.rspNor 0#4 0#8), (1, .rspSpeed 0#4 0#8), (2, .rspPosition 0#4 0#8), (3, .ena (List.replicate 9 0#8)),
      (5, .pow (List.replicate 9 0#8)), (7, .mod (List.replicate 9 0#8)), (10, .xxx (List.replicate 9 0#8)),
      (11, .unknownCmd 11#8 (List.replicate 9 0#8))].all (fun x => decodeTableWord 8 x.1 == some x.2) = true := by
  decide +kernel

/-- A table word placed in the reset state is what the next step runs: ENA. -/
theorem test_step_runs_the_placed_word :
    nextIs (step (State.reset.withFetchWord 8 3)) (fun t => t == { State.reset with
      safety := { SafetyRegs.reset with enable := true } }) = true := by decide +kernel

/-! ### The transactions -/

/-- V55: RESET from a state with an estop, an expiry and a partial frame. -/
theorem test_reset :
    nextIs (exec .reset { holding [0x2F#8, 5#8] with
      safety := { enable := true, estop := true, wdtExpired := true, wdtCnt := 3#16 }, tx := [1#8] })
      (fun t => t == State.reset) = true := by decide +kernel

/-- V50, V7's pulses: the first valid code. -/
theorem test_ctrl_tick_first_valid_code :
    nextIs (exec (.ctrlTick 0b001#3 false) State.reset) (fun t =>
      t.hall == { HallRegs.reset with sectorValid := true } && t.synth == SynthRegs.reset tp &&
        t.speed == SpeedRegs.reset tp && !outEn t) = true := by decide +kernel

/-- V51: overcurrent gates `out_en` and nothing else. -/
theorem test_ctrl_tick_under_overcurrent :
    nextIs (exec (.ctrlTick 0b001#3 true) { State.reset with
      ctrl := { CtrlRegs.reset with pwmInput := 400 }, safety := { SafetyRegs.reset with enable := true } })
      (fun t => t.ctrl.pwmOut == 100 && t.synth.pulseY == 1125 && t.synth.pulseB == 1225 && t.synth.pulseG == 1025 &&
        !outEn t && statusByte t == 0x85#8) = true := by decide +kernel

/-- V13a: a length above 9 aborts. -/
theorem test_rx_byte_aborts :
    nextIs (exec (.rxByte 0x0A#8 0#16 0#16) (holding [0x2F#8])) (fun t =>
      t.parser == { recording := false, idx := 0, buf := bufOf [0x2F#8, 0x0A#8] }) = true := by decide +kernel

/-- V24: the last byte of DIS with BATTERY, vbat 3650. -/
theorem test_rx_byte_completes_a_frame :
    nextIs (exec (.rxByte 0x0A#8 3650#16 0#16) (holding [0x2F#8, 0#8, 0x20#8, 4#8, 3#8, 0x2C#8, 0x17#8]))
      (fun t => t.tx == [0x2F#8, 2#8, 0x20#8, 4#8, 3#8, 0x42#8, 0x0E#8, 0x2A#8, 0x7E#8, 0x0A#8] &&
        !t.parser.recording) = true := by decide +kernel

/-- V53: the first tick and the last. -/
theorem test_wdt_tick_counts :
    nextIs (exec .wdtTick (armed 3#16)) (fun t => t == armed 2#16) = true := by decide +kernel
theorem test_wdt_tick_expires :
    nextIs (exec .wdtTick (armed 1#16)) (fun t =>
      t.safety == { enable := false, estop := false, wdtExpired := true, wdtCnt := 0#16 }) = true := by decide +kernel

/-! ### The sub-operations -/

/-- V2: sector 0 to 1, forward. -/
theorem test_hall_stage_forward :
    nextIs (exec (.hallStage 0b011#3) (atSector 0)) (fun t =>
      t.hall == { sector := 1, sectorValid := true, hallDir := .forward, odo := 1, transition := true, validTr := true
                  hallInvalid := false }) = true := by decide +kernel

/-- V5: a jump by 3 moves the sector and keeps direction and odometer. -/
theorem test_hall_stage_jump :
    nextIs (exec (.hallStage 0b110#3) { State.reset with
      hall := { HallRegs.reset with sectorValid := true, hallDir := .reverse, hallInvalid := true } }) (fun t =>
      t.hall == { sector := 3, sectorValid := true, hallDir := .reverse, odo := 0, transition := true, validTr := false
                  hallInvalid := false }) = true := by decide +kernel

/-- E1: all eight codes. -/
theorem test_hall_decode :
    [(0b000#3, 7), (0b001#3, 0), (0b010#3, 2), (0b011#3, 1), (0b100#3, 4), (0b101#3, 5), (0b110#3, 3), (0b111#3, 7)].all
      (fun x => nextIs (exec (.hallDecode x.1) State.reset) (fun t => t.result == .sector x.2)) = true := by
  decide +kernel

/-- V30b: a transition after 100 ticks. -/
theorem test_speed_stage_transition :
    nextIs (exec .speedStage { State.reset with
      hall := { HallRegs.reset with sectorValid := true, transition := true, hallDir := .forward }
      speed := { SpeedRegs.reset tp with phaseCnt := 99 } })
      (fun t => t.speed == { phaseCnt := 0, phasePeriod := 100, speedReg := 1000, speedFilt := 7 }) = true := by
  decide +kernel

/-- V30c: the tick after it. -/
theorem test_speed_stage_holds_the_period :
    nextIs (exec .speedStage { State.reset with
      hall := { HallRegs.reset with sectorValid := true, hallDir := .forward }
      speed := { phaseCnt := 0, phasePeriod := 100, speedReg := 1000, speedFilt := 7 } })
      (fun t => t.speed == { phaseCnt := 1, phasePeriod := 100, speedReg := 1993, speedFilt := 15 }) = true := by
  decide +kernel

/-- V33: the steady state of a reverse rotation. -/
theorem test_speed_update_steady_reverse :
    nextIs (exec (.speedUpdate (BitVec.ofInt 32 (-2000))) { State.reset with
      speed := { SpeedRegs.reset tp with speedReg := -255873, speedFilt := -2000 } })
      (fun t => t.speed.speedReg == -255873 && t.speed.speedFilt == -2000) = true := by decide +kernel

/-- P2, last tick: the deferred restart. -/
theorem test_ctrl_stage_phase_restart :
    nextIs (exec .ctrlStage { State.reset with
      hall := { HallRegs.reset with sector := 1, sectorValid := true, transition := true }
      ctrl := { CtrlRegs.reset with mode := .running, restartPending := true, setpoint := 200 } })
      (fun t => t.ctrl.mode == .stepper && !t.ctrl.restartPending && t.ctrl.angleY == 60 && t.ctrl.stepCnt == 1) =
        true := by decide +kernel

/-- V41, first tick: open loop, POW 760. -/
theorem test_ctrl_stage_open_loop :
    nextIs (exec .ctrlStage (withCtrl { CtrlRegs.reset with pwmInput := 760 })) (fun t =>
      t.ctrl == { CtrlRegs.reset with pwmInput := 760, pwmReg := 760, pwmOut := 190 }) = true := by decide +kernel

/-- V44, tick 16: one degree down from 0. -/
theorem test_stepper_step_down :
    nextIs (exec .stepperStep (withCtrl { CtrlRegs.reset with mode := .stepper, setpoint := -100, stepCnt := 15 }))
      (fun t => t.ctrl.angleY == 359 && t.ctrl.stepCnt == 0) = true := by decide +kernel

/-- V43: the period is 2 at 833. -/
theorem test_stepper_step_waits :
    nextIs (exec .stepperStep (withCtrl { CtrlRegs.reset with mode := .stepper, setpoint := 833 }))
      (fun t => t.ctrl.angleY == 0 && t.ctrl.stepCnt == 1) = true := by decide +kernel

/-- R328, row 3: the sign change clears the integral. -/
theorem test_pidf_eval_sign_change :
    nextIs (exec .pidfEval (withCtrl { CtrlRegs.reset with
      mode := .running, setpoint := -1000, lastSetpoint := 1000, integral := 328000 })) (fun t =>
      t.ctrl.pTerm == -500 && t.ctrl.iTerm == 0 && t.ctrl.fTerm == -251 && t.ctrl.integral == 0 &&
        t.ctrl.pidOut == -751 && t.ctrl.lastSetpoint == -1000) = true := by decide +kernel

/-- R328, row 7: integral and output clamped. -/
theorem test_pidf_eval_clamps :
    nextIs (exec .pidfEval { withCtrl { CtrlRegs.reset with
      mode := .running, setpoint := -5000, lastSetpoint := -5000, integral := -9830000 } with
      speed := { SpeedRegs.reset tp with speedReg := 640000, speedFilt := 5000 } }) (fun t =>
      t.ctrl.pTerm == -5000 && t.ctrl.iTerm == -300 && t.ctrl.fTerm == -1051 && t.ctrl.integral == -9830400 &&
        t.ctrl.pidOut == -1000) = true := by decide +kernel

/-- V41, second tick; V42, first tick. -/
theorem test_pwm_filter_rises :
    nextIs (exec (.pwmFilter 760#16) (withCtrl { CtrlRegs.reset with pwmReg := 760, pwmOut := 190 })) (fun t =>
      t.ctrl.pwmReg == 1330 && t.ctrl.pwmOut == 332) = true := by decide +kernel
theorem test_pwm_filter_negative :
    nextIs (exec (.pwmFilter (BitVec.ofInt 16 (-1000))) State.reset) (fun t => t.ctrl.pwmOut == -250) = true := by
  decide +kernel

/-- V10: block, sector 1, full power. -/
theorem test_synth_stage_block :
    nextIs (exec .synthStage { atSector 1 with ctrl := { CtrlRegs.reset with pwmReg := 4000, pwmOut := 1000 } })
      (fun t => t.synth == { phaseY := 1000, phaseB := 0, phaseG := -1000, pulseY := 2125, pulseB := 1125
                             pulseG := 125 }) = true := by decide +kernel

/-- V10b: STEPPER at angle 1. -/
theorem test_synth_stage_stepper :
    nextIs (exec .synthStage (withCtrl { CtrlRegs.reset with
      mode := .stepper, setpoint := 100, angleY := 1, pwmOut := 132 })) (fun t =>
      t.synth == { phaseY := 0, phaseB := 13, phaseG := -14, pulseY := 1125, pulseB := 1138, pulseG := 1111 }) =
        true := by decide +kernel

/-- E2: all six sectors. -/
theorem test_block_commutate :
    [((0 : Fin 6), OpResult.phases 0 1000 (-1000)), (1, .phases 1000 0 (-1000)), (2, .phases 1000 (-1000) 0),
      (3, .phases 0 (-1000) 1000), (4, .phases (-1000) 0 1000), (5, .phases (-1000) 1000 0)].all
      (fun x => nextIs (exec (.blockCommutate 1000#16 x.1) State.reset) (fun t => t.result == x.2)) = true := by
  decide +kernel

/-- V8 to V8h. -/
theorem test_sine_commutate :
    [((-1000 : Int), (90 : Int), OpResult.phases (-125) 62 62), (500, 30, .phases 31 31 (-62)),
      (1000, -30, .phases (-62) 125 (-62)), (1000, 400, .phases 80 42 (-123)), (-9, 90, .phases (-2) 1 1),
      (8, 90, .phases 1 0 0), (7, 90, .phases 0 0 0), (-1, 90, .phases (-1) 0 0), (1000, 0, .phases 0 108 (-108))].all
      (fun x => nextIs (exec (.sineCommutate (BitVec.ofInt 16 x.1) (BitVec.ofInt 16 x.2.1)) State.reset)
        (fun t => t.result == x.2.2)) = true := by decide +kernel

/-- V9 to V9d. -/
theorem test_pulse_clamp :
    [((0 : Int), (1125 : Int)), (1000, 2125), (-1000, 125), (1115, 2240), (-1116, 10)].all
      (fun x => nextIs (exec (.pulseClamp (BitVec.ofInt 32 x.1)) State.reset) (fun t => t.result == .pulse x.2)) =
        true := by decide +kernel

/-- V46. -/
theorem test_set_power_clamps :
    nextIs (exec (.setPower 3000#16) State.reset) (fun t => t.ctrl == { CtrlRegs.reset with pwmInput := 1000 }) =
      true := by decide +kernel

/-- V45: the clamp from below; V48: 500 is not above the threshold. -/
theorem test_set_speed_clamps :
    nextIs (exec (.setSpeed 0x8000#16) State.reset) (fun t =>
      t.ctrl == { CtrlRegs.reset with setpoint := -5000, mode := .running }) = true := by decide +kernel
theorem test_set_speed_at_the_threshold :
    nextIs (exec (.setSpeed 500#16) (atSector 1)) (fun t =>
      t.ctrl == { CtrlRegs.reset with setpoint := 500, mode := .stepper, angleY := 60 }) = true := by decide +kernel

/-- V13d: a wrong CRC and no later SOM; P3: the shift to the SOM in the payload. -/
theorem test_rx_parse_wrong_crc :
    nextIs (exec (.rxParse 0x0A#8) (holding (badFrame.take 7))) (fun t =>
      t == { State.reset with parser := { recording := false, idx := 0, buf := bufOf badFrame } }) = true := by
  decide +kernel
theorem test_rx_parse_resynchronises :
    nextIs (exec (.rxParse 0x0A#8) (holding [0x2F#8, 3#8, 0#8, 9#8, 0#8, 0x2F#8, 1#8, 2#8, 0#8, 0#8])) (fun t =>
      t.parser.recording && t.parser.idx == 6 &&
        Memory.slice t.parser.buf 0 6 == [0x2F#8, 1#8, 2#8, 0#8, 0#8, 0x0A#8]) = true := by decide +kernel

/-- V12. -/
theorem test_crc16 :
    [(([] : List Byte), 0#16), ([0#8], 0#16), ([0x2F#8], 0xD58D#16), ([0x2F#8, 0#8, 0#8, 3#8, 0#8], 0x381E#16),
      ([0x31#8, 0x32#8, 0x33#8, 0x34#8, 0x35#8, 0x36#8, 0x37#8, 0x38#8, 0x39#8], 0x31C3#16)].all
      (fun x => nextIs (exec (.crc16 x.1) State.reset) (fun t => t.result == .crc x.2)) = true := by decide +kernel

/-- ENA passes, its copy with a wrong CRC does not (V13d), unless the check is off (V13e). -/
theorem test_frame_check :
    (nextIs (exec (.frameCheck 0) (holding enaFrame)) (fun t => t.result == .valid true) &&
      nextIs (exec (.frameCheck 0) (holding badFrame)) (fun t => t.result == .valid false) &&
      nextIs (exec (.frameCheck 0) { holding badFrame with cfg := { tp with crcCheckEn := false } })
        (fun t => t.result == .valid true)) = true := by decide +kernel

/-- R500: total also with 17 bytes held, which no run reaches (R362). -/
theorem test_rx_parse_full_buffer :
    nextIs (exec (.rxParse 0x0A#8) { State.reset with parser := { recording := true, idx := 17, buf := [] } })
      (fun _ => true) = true := by decide +kernel

/-- R240 with PWM_RES 70000: half scale is 35000. -/
theorem test_pulse_clamp_large_resolution :
    nextIs (exec (.pulseClamp 125#32) { State.reset with cfg := { tp with pwmRes := 70000 } })
      (fun t => t.result == .pulse 35125) = true := by decide +kernel

/-- R87 at the boundary: a half scale of 65535 is the largest that a pulse port holds. -/
theorem test_reset_largest_half_scale :
    nextIs (exec .reset { State.reset with cfg := { tp with pwmRes := 131071 } })
      (fun t => t.synth.pulseY == 65535#16 && t.synth.pulseB == 65535#16 && t.synth.pulseG == 65535#16) = true := by
  decide +kernel

/-- V21: an unknown command only reloads; the reply carries position -6. -/
theorem test_dispatch_unknown_command_with_reply :
    nextIs (exec (.dispatch { seq := 3#4, dest := 7#4, cid := 0x55#8, rid := 2#8, payload := [] })
      { State.reset with hall := { HallRegs.reset with sectorValid := true, odo := -2 } }) (fun t =>
      t.tx == [0x2F#8, 4#8, 0x30#8, 0x55#8, 2#8, 0xFA#8, 0xFF#8, 0xFF#8, 0xFF#8, 0xD4#8, 0x3B#8, 0x0A#8] &&
        t.hall.odo == -2) = true := by decide +kernel

/-- R400: a frame for another address under a set filter does not even reload. -/
theorem test_dispatch_filtered :
    nextIs (exec (.dispatch { ena with dest := 7#4 }) { armed 1#16 with cfg := { tp with addrFilter := some 1#4 } })
      (fun t => t == { armed 1#16 with cfg := { tp with addrFilter := some 1#4 } }) = true := by decide +kernel

/-- V23: an unknown rspId is answered with len 0. -/
theorem test_reply_unknown :
    nextIs (exec (.reply 1#4 4#8 0x20#8) State.reset) (fun t =>
      t.tx == [0x2F#8, 0#8, 0x10#8, 4#8, 0x20#8, 0x88#8, 0xC6#8, 0x0A#8]) = true := by decide +kernel

/-- P4 after WDT ×3: the filter register stays. -/
theorem test_expire_keeps_the_filter :
    nextIs (exec .expire { armed 0#16 with ctrl := { CtrlRegs.reset with pwmInput := 400, pwmReg := 400, pwmOut := 100 } })
      (fun t => t.ctrl == { CtrlRegs.reset with pwmReg := 400, pwmOut := 100 } &&
        t.safety == { enable := false, estop := false, wdtExpired := true, wdtCnt := 0#16 }) = true := by decide +kernel

/-! ### The commands -/

/-- P4: ENA after an expiry. -/
theorem test_ena :
    nextIs (exec (.ena []) { State.reset with safety := { SafetyRegs.reset with wdtExpired := true } }) (fun t =>
      t.safety == { SafetyRegs.reset with enable := true }) = true := by decide +kernel
theorem test_dis : nextIs (exec (.dis []) (armed 3#16)) (fun t => !t.safety.enable && t.safety.wdtCnt == 3#16) = true := by
  decide +kernel

/-- The frame POW -500. -/
theorem test_pow : nextIs (exec (.pow [0x0C#8, 0xFE#8]) State.reset) (fun t => t.ctrl.pwmInput == -500) = true := by
  decide +kernel

/-- V29: too short. -/
theorem test_pow_short : nextIs (exec (.pow [0x20#8]) State.reset) (fun t => t == State.reset) = true := by decide +kernel

/-- V26. -/
theorem test_dog :
    nextIs (exec (.dog [0xFA#8, 0#8]) State.reset) (fun t =>
      t.conf.wdtInterval == 250#16 && t.safety.wdtCnt == 250#16) = true := by decide +kernel

/-- V27a, V27. -/
theorem test_mod :
    nextIs (exec (.mod [1#8, 0x2C#8, 1#8]) State.reset) (fun t =>
      t.conf == { ConfRegs.reset tp with commMode := .sine, stepThresh := 300#16 }) = true := by decide +kernel
theorem test_mod_malformed :
    nextIs (exec (.mod [2#8, 0x2C#8, 1#8]) State.reset) (fun t => t == State.reset) = true := by decide +kernel

/-- V22: `odo` cleared. -/
theorem test_res :
    nextIs (exec (.res []) { State.reset with hall := { HallRegs.reset with sectorValid := true, odo := -2 } }) (fun t =>
      t.hall == { HallRegs.reset with sectorValid := true }) = true := by decide +kernel

/-- V29a: SPE -300 enters STEPPER. -/
theorem test_spe :
    nextIs (exec (.spe [0xD4#8, 0xFE#8]) State.reset) (fun t => t.ctrl.setpoint == -300 && t.ctrl.mode == .stepper) =
      true := by decide +kernel

/-- V29b. -/
theorem test_xxx :
    nextIs (exec (.xxx []) (armed 3#16)) (fun t =>
      t.safety == { enable := false, estop := true, wdtExpired := false, wdtCnt := 3#16 }) = true := by decide +kernel
theorem test_unknown_cmd :
    nextIs (exec (.unknownCmd 0x55#8 [1#8]) (armed 2#16)) (fun t => t == armed 2#16) = true := by decide +kernel

/-! ### The replies -/

theorem test_rsp_nor : nextIs (exec (.rspNor 5#4 3#8) State.reset) (fun t => t == State.reset) = true := by decide +kernel

/-- V20. -/
theorem test_rsp_speed :
    nextIs (exec (.rspSpeed 5#4 3#8) State.reset) (fun t =>
      t.tx == [0x2F#8, 2#8, 0x50#8, 3#8, 1#8, 0#8, 0#8, 0x81#8, 0xD6#8, 0x0A#8]) = true := by decide +kernel

/-- V22's reply. -/
theorem test_rsp_position :
    nextIs (exec (.rspPosition 3#4 8#8) State.reset) (fun t =>
      t.tx == [0x2F#8, 4#8, 0x30#8, 8#8, 2#8, 0#8, 0#8, 0#8, 0#8, 0x89#8, 0x20#8, 0x0A#8]) = true := by decide +kernel

/-- V24. -/
theorem test_rsp_battery :
    nextIs (exec (.rspBattery 2#4 4#8) { State.reset with ports := { Ports.quiet with vbat := 3650#16 } }) (fun t =>
      t.tx == [0x2F#8, 2#8, 0x20#8, 4#8, 3#8, 0x42#8, 0x0E#8, 0x2A#8, 0x7E#8, 0x0A#8]) = true := by decide +kernel

/-- V25. -/
theorem test_rsp_current :
    nextIs (exec (.rspCurrent 2#4 4#8) { State.reset with ports := { Ports.quiet with ibus := BitVec.ofInt 16 (-120) } })
      (fun t => t.tx == [0x2F#8, 2#8, 0x20#8, 4#8, 4#8, 0x88#8, 0xFF#8, 0x1B#8, 0xFD#8, 0x0A#8]) = true := by
  decide +kernel

/-- V28's reply. -/
theorem test_rsp_pwm :
    nextIs (exec (.rspPwm 0#4 5#8) State.reset) (fun t =>
      t.tx == [0x2F#8, 2#8, 0#8, 5#8, 5#8, 0#8, 0#8, 0xEA#8, 0x38#8, 0x0A#8]) = true := by decide +kernel

/-- V26. -/
theorem test_rsp_watchdog :
    nextIs (exec (.rspWatchdog 4#4 6#8) { State.reset with conf := { ConfRegs.reset tp with wdtInterval := 250#16 } })
      (fun t => t.tx == [0x2F#8, 2#8, 0x40#8, 6#8, 6#8, 0xFA#8, 0#8, 0x04#8, 0x17#8, 0x0A#8]) = true := by
  decide +kernel

/-- P1, first reply. -/
theorem test_rsp_pidf :
    nextIs (exec (.rspPidf 6#4 0x77#8) (withCtrl { CtrlRegs.reset with pTerm := 50, iTerm := 16, fTerm := 70 }))
      (fun t => t.tx == [0x2F#8, 6#8, 0x60#8, 0x77#8, 7#8, 0x32#8, 0#8, 0x10#8, 0#8, 0x46#8, 0#8, 0x82#8, 0xDC#8,
        0x0A#8]) = true := by decide +kernel

/-- P1, second reply: status 0x90. -/
theorem test_rsp_telemetry :
    nextIs (exec (.rspTelemetry 6#4 0x77#8) { atSector 0 with
      ctrl := { CtrlRegs.reset with mode := .stepper, setpoint := 100, pwmOut := 132 } }) (fun t =>
      t.tx == [0x2F#8, 9#8, 0x60#8, 0x77#8, 8#8, 0#8, 0#8, 0#8, 0#8, 0#8, 0#8, 0x84#8, 0#8, 0x90#8, 0x3C#8, 0x47#8,
        0x0A#8]) = true := by decide +kernel
theorem test_rsp_unknown :
    nextIs (exec (.rspUnknown 1#4 4#8 0x20#8) State.reset) (fun t =>
      t.tx == [0x2F#8, 0#8, 0x10#8, 4#8, 0x20#8, 0x88#8, 0xC6#8, 0x0A#8]) = true := by decide +kernel

/-! ### Refusals -/

theorem test_refuses_before_reset :
    refuses (exec (.ctrlTick 0#3 false) { State.reset with booted := false }) .beforeReset = true := by decide +kernel
theorem test_refuses_a_flawed_configuration :
    refuses (exec .reset { State.reset with cfg := { tp with kp := 30000 } }) (.configuration .pb2) = true := by
  decide +kernel

/-! ### Witnesses: a concrete state and operands that meet the hypotheses of each obligation together -/

theorem exists_of_nextIs {o : Out} {p : State → Bool} (h : nextIs o p = true) : ∃ t, o = .next t ∧ p t = true := by
  cases o with
  | next t => exact ⟨t, rfl, h⟩
  | fault _ => cases h
  | refused _ => cases h

/-- What FRAME_CHECK answers on the buffer, as the outcome of the operation. -/
theorem execFrameCheck_of {s : State} {len : Fin 10} {v : Bool} (h : s.Admitted)
    (hv : frameCheck s.cfg s.parser.buf len.val = v) :
    exec (.frameCheck len) s = .next { s with result := .valid v } := by
  subst hv
  rw [show exec (.frameCheck len) s = execFrameCheck len s from rfl, execFrameCheck, runUpdate_of h]

/-- Ports with all four strobes asserted, hall 001. -/
def allStrobes : Ports :=
  { Ports.quiet with rst := true, ctrlTick := true, rxValid := true, wdtTick := true, hall := 0b001#3 }

/-- The RESET state with one port sample. -/
def atPorts (p : Ports) : State := { State.reset with ports := p }

/-- All four strobes asserted: the invariant holds. -/
theorem witness_inv_allStrobes : (atPorts allStrobes).Inv :=
  { legal := by decide +kernel, booted := rfl, noIssue := rfl, hall := by decide +kernel, speed := by decide +kernel
    ranges := by decide +kernel, modes := by decide +kernel, synth := by decide +kernel, watchdog := by decide +kernel
    parser := by decide +kernel }

/-- The RESET state with an operation word issued. -/
def issued (w : List Byte) : State := { State.reset with issue := w }

/-- The reset state is admitted: the one hypothesis of RxByteParsesOneByte CtrlTickRunsTheFourStages,
WdtTickCountsDownAndExpires, HallDecodeReadsTheTable, BlockCommutationDrivesTwoPhases, SineCommutationFollowsItsPseudocode,
PulseClampLeavesTheDutyMargin, SetPowerForcesOpenLoop, SetSpeedChoosesTheMode,
PidfEvalFollowsItsPseudocode, EnaEnablesAndRearms (its first clause),
DisAndResClearOneRegister, XxxLatchesTheEmergencyStop, ExpireDisablesAndForcesOpenLoop, TwoByteRepliesReadTheirRegister,
PositionAndPidfReplies, TelemetryReplyPacksTheStatusByte and CrcFollowsItsPseudocode. -/
theorem witness_admitted : State.reset.Admitted := by decide +kernel

theorem witness_StepRunsTheTakenOperation_issue :
    (issued [1#8, 6#8]).issue ≠ [] ∧ decode (issued [1#8, 6#8]).cfg (issued [1#8, 6#8]).issue = .ok .speedStage :=
  ⟨by decide, rfl⟩
theorem witness_StepRunsTheTakenOperation_strobe :
    let s := atPorts { Ports.quiet with wdtTick := true }
    s.issue = [] ∧ takeNext (arrive s) = some ({ Ports.quiet with wdtTick := true }, State.reset) ∧
      ({ Ports.quiet with wdtTick := true } : Ports).transaction = .ok .wdtTick := ⟨rfl, rfl, rfl⟩
theorem witness_StepRunsTheTakenOperation_level :
    let s : State := { State.reset with inputs := [{ Ports.quiet with overcurrent := true }] }
    s.issue = [] ∧ takeNext (arrive s) = none := ⟨rfl, rfl⟩
theorem witness_StepRunsTheTakenOperation_quiet : State.reset.Quiet := by decide +kernel
theorem witness_OneStrobeIsTakenAndResetLast_strobes : ∃ p t, takeNext (atPorts allStrobes) = some (p, t) := ⟨_, _, rfl⟩
theorem witness_OneStrobeIsTakenAndResetLast_asserted :
    let q := (atPorts { Ports.quiet with wdtTick := true }).ports
    q.rst = true ∨ q.ctrlTick = true ∨ q.rxValid = true ∨ q.wdtTick = true := by decide
theorem witness_OneStrobeIsTakenAndResetLast_reset :
    takeNext (atPorts { Ports.quiet with rst := true }) = some ({ Ports.quiet with rst := true }, State.reset) := rfl
theorem witness_ResetWithOtherStrobesLeavesTheResetState :
    (atPorts allStrobes).Inv ∧ (atPorts allStrobes).ports.rst = true := ⟨witness_inv_allStrobes, rfl⟩
theorem witness_DecodeOfEncodeIsTheOperation :
    tp.Legal ∧ (Instr.mod [1#8, 0xFF#8, 0xFF#8, 1#8, 1#8, 1#8, 1#8, 1#8, 1#8]).wf tp = true := by decide +kernel

/-- The last tick of an armed watchdog at the ports. -/
def watchdogTick : State := { armed 1#16 with ports := { Ports.quiet with wdtTick := true } }
theorem witness_EveryStepKeepsTheInvariant :
    watchdogTick.Inv ∧ ∃ t, step watchdogTick = .next t :=
  ⟨{ legal := by decide +kernel, booted := rfl, noIssue := rfl, hall := by decide +kernel, speed := by decide +kernel
     ranges := by decide +kernel, modes := by decide +kernel, synth := by decide +kernel, watchdog := by decide +kernel
     parser := by decide +kernel },
    (exists_of_nextIs (p := fun t => t.safety.wdtExpired) (by decide +kernel)).imp fun _ h => h.1⟩
theorem witness_ResetStateHasTheInvariant : tp.Legal := by decide +kernel
theorem witness_EveryOperationIsTotal : (atPorts allStrobes).Ready ∧ (atPorts allStrobes).issue = [] := by
  decide +kernel
theorem witness_WhereTheModelStops_flaw :
    ({ State.reset with cfg := { tp with kp := 30000 } } : State).cfg.check = some .pb2 := by decide +kernel
theorem witness_WhereTheModelStops_beforeReset :
    let s : State := { State.reset with booted := false }
    s.cfg.check = none ∧ s.booted = false ∧ Instr.speedStage ≠ .reset := ⟨by decide +kernel, rfl, by decide⟩

theorem witness_FrameRoundTripThroughTheParser :
    State.reset.Admitted ∧ State.reset.parser.IsIdle ∧ Memory.wf State.reset.parser.buf = true ∧
      ({ ena with payload := List.replicate 9 0x2F#8 } : Frame).wf = true ∧ 0 < (encodeFrame ena).length := by
  decide +kernel

/-- K holds a stray SOM whose length aborts, and a frame with a wrong CRC. -/
theorem witness_ResynchronisationUnderConditionP :
    State.reset.Admitted ∧ State.reset.parser.IsIdle ∧ Memory.wf State.reset.parser.buf = true ∧ ena.wf = true ∧
      ConditionP State.reset.cfg (0x2F#8 :: 0x0A#8 :: badFrame) := by decide +kernel
theorem witness_FifteenZeroBytesFlushTheParser :
    (holding [0x2F#8, 9#8, 0x2F#8, 9#8]).Admitted ∧ (holding [0x2F#8, 9#8, 0x2F#8, 9#8]).parser.Inv := by
  decide +kernel
theorem witness_CrcDetectsEverySingleBitError : 8 < (List.replicate 9 0x2F#8).length ∧ 7 < 8 := by decide
theorem witness_NoFrameDispatchedAfterAnySingleBitError :
    ena.wf = true ∧ 7 < (encodeFrame ena).length ∧ 7 < 8 := by decide +kernel
theorem witness_ParserStartsAppendsAndAborts_idle :
    State.reset.Admitted ∧ Memory.wf State.reset.parser.buf = true ∧ State.reset.parser.recording = false := by
  decide +kernel
theorem witness_ParserStartsAppendsAndAborts_waits :
    let s := holding [0x2F#8, 9#8]
    s.Admitted ∧ Memory.wf s.parser.buf = true ∧ s.parser.recording = true ∧ s.parser.idx ≤ 16 ∧
      (Memory.read s.parser.buf 1).toNat ≤ 9 ∧ s.parser.idx + 1 < (Memory.read s.parser.buf 1).toNat + 8 := by
  decide +kernel

/-- The received byte 0x0A, at offset 1, is a length of 10. -/
theorem witness_ParserStartsAppendsAndAborts_aborts :
    let s := holding [0x2F#8]
    s.Admitted ∧ Memory.wf s.parser.buf = true ∧ s.parser.recording = true ∧ 1 ≤ s.parser.idx ∧ s.parser.idx ≤ 16 ∧
      s.parser.idx = 1 ∧ 9 < (0x0A#8).toNat := by decide +kernel
/-- The buffer of ENA with its last byte still to come. -/
def enaButLast : State := holding (enaFrame.take 7)

/-- The state in which FRAME_CHECK sees the last byte of a frame of length 0. -/
def appended (s : State) (b : Byte) : State :=
  { s with parser := { s.parser with buf := Memory.write s.parser.buf s.parser.idx b, idx := s.parser.idx + 1 } }

theorem witness_ValidatedFrameIsDispatched :
    enaButLast.Admitted ∧ enaButLast.parser.recording = true ∧ 1 ≤ enaButLast.parser.idx ∧
      enaButLast.parser.idx ≤ 16 ∧ (Memory.read (appended enaButLast eom).parser.buf 1).toNat = (0 : Fin 10).val ∧
      (0 : Fin 10).val + 8 ≤ enaButLast.parser.idx + 1 ∧
      exec (.frameCheck 0) (appended enaButLast eom) =
        .next { appended enaButLast eom with result := .valid true } := by
  refine ⟨by decide +kernel, by decide +kernel, by decide +kernel, by decide +kernel, by decide +kernel,
    by decide +kernel, execFrameCheck_of (by decide +kernel) (by decide +kernel)⟩

/-- A failing frame without a later SOM. -/
theorem witness_FailedCheckShiftsToTheNextSom_none :
    let s := holding (badFrame.take 7)
    s.Admitted ∧ Memory.wf s.parser.buf = true ∧ s.parser.recording = true ∧ 1 ≤ s.parser.idx ∧ s.parser.idx ≤ 16 ∧
      (Memory.read (appended s eom).parser.buf 1).toNat = (0 : Fin 10).val ∧ (0 : Fin 10).val + 8 ≤ s.parser.idx + 1 ∧
      (∀ k, 1 ≤ k → k < s.parser.idx + 1 → Memory.read (appended s eom).parser.buf k ≠ 0x2F#8) ∧
      exec (.frameCheck 0) (appended s eom) =
        .next { appended s eom with result := .valid false } := by
  refine ⟨by decide +kernel, by decide +kernel, by decide +kernel, by decide +kernel, by decide +kernel,
    by decide +kernel, by decide +kernel, ?_, execFrameCheck_of (by decide +kernel) (by decide +kernel)⟩
  intro k h1 h2
  have : k < 8 := h2
  interval_cases k <;> decide +kernel

/-- Failing frames of length 0 with the first later SOM at j: at the last byte, before a legal length, before 0x0A. -/
theorem witness_FailedCheckShiftsToTheNextSom_shift :
    [([0x2F#8, 0#8, 0#8, 3#8, 0#8, 0#8, 0#8], 0x2F#8, 7), ([0x2F#8, 0#8, 0#8, 3#8, 0#8, 0#8, 0x2F#8], 9#8, 6),
      ([0x2F#8, 0#8, 0#8, 3#8, 0#8, 0#8, 0x2F#8], 0x0A#8, 6)].all (fun x =>
        let s := holding x.1
        let buf := (appended s x.2.1).parser.buf
        decide s.Admitted && Memory.wf s.parser.buf && !frameCheck s.cfg buf 0 && Memory.read buf x.2.2 == som &&
          (List.range x.2.2).all (fun k => k == 0 || Memory.read buf k != som)) = true := by decide +kernel

/-- A failing frame of length 2 with a SOM at offset 2, whose alignment of length 0 is complete at once. -/
theorem witness_FailedCheckShiftsToTheNextSom_complete :
    let s := holding [0x2F#8, 2#8, 0x2F#8, 0#8, 0#8, 0#8, 0#8, 0#8, 0#8]
    let buf := (appended s 0#8).parser.buf
    (decide s.Admitted && Memory.wf s.parser.buf && decide s.parser.Inv && !frameCheck tp buf 2 &&
      Memory.read buf 1 == 2#8 && Memory.read buf 2 == som && Memory.read buf 3 == 0#8 &&
      decide (0 + 8 ≤ s.parser.idx + 1 - 2)) = true := by decide +kernel
theorem witness_FrameCheckFollowsItsPseudocode : State.reset.Admitted := by decide +kernel
theorem witness_ResetGivesEveryRegisterItsValue : State.reset.cfg.check = none ∧ State.reset.cfg.Legal := by
  decide +kernel
theorem witness_ResetGivesEveryRegisterItsValue_outputs :
    nextIs (exec .reset (armed 3#16)) (fun t => !outEn t) = true := by decide +kernel
theorem witness_WatchdogExpiresAfterItsTicks :
    (armed 3#16).Admitted ∧ (armed 3#16).conf.wdtInterval ≠ 0#16 ∧ (armed 3#16).safety.wdtExpired = false ∧
      (armed 3#16).safety.wdtCnt ≠ 0#16 ∧ 2 < (armed 3#16).safety.wdtCnt.toNat ∧
      3 ≥ (armed 3#16).safety.wdtCnt.toNat := by decide +kernel
theorem witness_HallStageFollowsItsPseudocode :
    State.reset.Admitted ∧ 6 ≤ tp.tables.hall.getD (0b000#3).toNat 7 ∧
      tp.tables.hall.getD (0b101#3).toNat 7 = (5 : Fin 6).val ∧ State.reset.hall.sectorValid = false ∧
      (atSector 0).Admitted ∧ (atSector 0).hall.sectorValid = true := by decide +kernel
theorem witness_HallDecodeReadsTheTable_clauses :
    (0b111#3 ≠ 0b000#3) ∧ tp.tables.hall.getD (0b110#3).toNat 7 < 6 := by decide +kernel
/-- Both sides of the condition: magnitudes 16 and 15 under SINE_NORM 1000, and 8 under 866 and 867. -/
theorem witness_SineSignsMatchTheBlockRow :
    [(tp, (16 : Int), true), (tp, 15, false), ({ tp with sineNorm := 866 }, 8, true),
      ({ tp with sineNorm := 867 }, 8, false)].all (fun x =>
        decide (x.1.sineLut = Tables.sineDefault ∧ x.1.tables.block = Tables.blockDefault ∧ x.1.phaseAdv = 0 ∧
          1 ≤ x.1.sineNorm ∧ 8 ≤ x.2.1) && decide (x.1.sineNorm ≤ 866 * (x.2.1 / 8)) == x.2.2) = true := by
  decide +kernel
theorem witness_SineSignsMatchFromMagnitudeEight : (8 : Int) ≤ 8 := by decide
theorem witness_SynthStageSelectsTheWaveform :
    [withCtrl { CtrlRegs.reset with mode := .stepper, setpoint := 1, angleY := 359, pwmOut := -1000 }, State.reset,
      atSector 5, { atSector 5 with conf := { ConfRegs.reset tp with commMode := .sine } }].all (fun s =>
        decide s.Admitted && decide (Within 1000 s.ctrl.pwmOut) && decide (0 ≤ s.ctrl.angleY ∧ s.ctrl.angleY ≤ 359)) =
      true := by decide +kernel
theorem witness_SpeedUpdateFiltersTheRawSpeed :
    State.reset.Admitted ∧ Within tp.speedTicksFactor (BitVec.ofInt 32 (-100000)).toInt ∧
      FilterRange tp.speedTicksFactor tp.speedShift State.reset.speed.speedReg := by decide +kernel
theorem witness_PwmFilterFollowsItsPseudocode :
    State.reset.Admitted ∧ Within 1000 (BitVec.ofInt 16 (-1000)).toInt ∧
      FilterRange 1000 tp.pwmShift State.reset.ctrl.pwmReg := by decide +kernel
theorem witness_SpeedStageFollowsItsPseudocode : State.reset.Admitted ∧ 1 ≤ State.reset.speed.phasePeriod := by
  decide +kernel

/-- Invalid and held codes in turn, under a ceiling of 3. -/
theorem witness_StandstillReportsSpeedZero :
    let s : State := { atSector 0 with cfg := { tp with maxPhasePeriod := 3 } }
    let ticks : List (BitVec 3 × Bool) := [(0b000#3, false), (0b001#3, true), (0b111#3, false)]
    s.Admitted ∧ (∀ x ∈ ticks, s.cfg.tables.hall.getD x.1.toNat 7 = 7 ∨
      (s.hall.sectorValid = true ∧ s.cfg.tables.hall.getD x.1.toNat 7 = s.hall.sector.val)) ∧
      s.cfg.maxPhasePeriod ≤ ticks.length := by decide +kernel
theorem witness_StepperStepAdvancesTheAngle :
    let s := withCtrl { CtrlRegs.reset with mode := .stepper, setpoint := -1 }
    s.Admitted ∧ s.ctrl.setpoint ≠ 0 := by decide +kernel
theorem witness_CtrlStageRunsItsStepsInOrder :
    State.reset.Admitted ∧ Within 1000 State.reset.ctrl.pwmInput := by decide +kernel

/-- SPE 100, and SPE 4000 then SPE 100: the mode changes, then `restartPending`. -/
theorem witness_OnlyTheModeTableChangesTheMode :
    (nextIs (exec (.setSpeed 100#16) State.reset) (fun t => t.ctrl.mode != State.reset.ctrl.mode) &&
      nextIs (exec (.setSpeed 100#16) (withCtrl { CtrlRegs.reset with mode := .running, setpoint := 4000 }))
        (fun t => t.ctrl.restartPending)) = true := by decide +kernel
theorem witness_DispatchRunsReloadCommandAndReply :
    let s : State := { State.reset with cfg := { tp with addrFilter := some 1#4 } }
    s.Admitted ∧ s.cfg.addrFilter = some 1#4 ∧ ena.dest ≠ 1#4 ∧ State.reset.Admitted ∧
      State.reset.cfg.addrFilter = none := by decide +kernel
theorem witness_EnaEnablesAndRearms :
    State.reset.Admitted ∧ State.reset.cfg.addrFilter = none ∧ ena.cid = 3#8 ∧ ena.rid = 0#8 := by decide +kernel
theorem witness_PowAndSpeCallTheSetters : State.reset.Admitted ∧ [0x20#8].length < 2 := by decide +kernel
theorem witness_DogLoadsTheWatchdog : State.reset.Admitted ∧ [0x20#8].length < 2 := by decide +kernel
theorem witness_ModSetsWaveformAndThreshold : State.reset.Admitted ∧ [1#8, 0x2C#8].length < 3 := by decide +kernel
theorem witness_UnknownCommandOnlyReloads :
    State.reset.Admitted ∧ State.reset.cfg.addrFilter = none ∧ State.reset.cfg.cmdCode.select 0x55#8 [] = none ∧ State.reset.cfg.cmdCode.select 5#8 [0x20#8] = none := by
  decide +kernel
theorem witness_ReplyBuildsOneFrame : State.reset.Admitted ∧ (0x20#8 : Byte) ≠ 0#8 := by decide +kernel
theorem witness_NorIsSilentAndUnknownResponseIsEmpty :
    State.reset.Admitted ∧ State.reset.cfg.addrFilter = none ∧ ena.rid = 0#8 := by decide +kernel
theorem witness_WriteAccessByTransaction :
    (nextIs (exec (.ctrlTick 0b001#3 true) State.reset) (fun t => t.hall.sectorValid) &&
      nextIs (exec (.rxByte 0x2F#8 1#16 2#16) State.reset) (fun t => t.parser.recording) &&
      nextIs (exec .wdtTick (armed 1#16)) (fun t => t.safety.wdtExpired)) = true := by decide +kernel

/-- The estop hypothesis; a sample that only lowers overcurrent (V52), after which out_en is 1. -/
theorem witness_OutputIsGatedAndEstopHoldsUntilReset :
    let s : State := { State.reset with safety := { SafetyRegs.reset with estop := true } }
    let u : State := { armed 3#16 with
      ports := { Ports.quiet with overcurrent := true }, inputs := [Ports.quiet] }
    (nextIs (exec (.ena []) s) (fun t => t.safety.enable) && s.safety.estop && u.issue == [] && idlePorts u.ports &&
      idlePorts Ports.quiet && !outEn u && nextIs (step u) (fun t => outEn t)) = true := by decide +kernel
theorem witness_OnlyEnaRestoresTheOutput :
    let s : State := { State.reset with safety := { SafetyRegs.reset with wdtExpired := true } }
    nextIs (exec (.dispatch ena) s) (fun t => t.safety.enable && !s.safety.enable && !t.safety.wdtExpired) = true := by
  decide +kernel
theorem witness_ParametersAreFixedAndTxOnlyGrows :
    nextIs (exec (.rspSpeed 5#4 3#8) State.reset) (fun t => t.tx.length == 10) = true := by decide +kernel

end Sys2Proof.Tests
end

section
/-! SUPPORT. Transaction words decode to their transaction, and a quiet state takes no strobe: how a step finds the
operation it runs (00_scope.md R6, 20_memory.md R88, 60_exceptions.md R518). -/

namespace Sys2Proof

/-! ### The control byte of a port sample -/

/-- The bits of the control byte, from the low end: the strobes and levels of R30 in the order of log 4. -/
theorem Ports.control_getLsbD (p : Ports) (i : Nat) :
    p.control.getLsbD i =
      if i < 1 then (BitVec.ofBool p.rst).getLsbD i
      else if i < 2 then (BitVec.ofBool p.ctrlTick).getLsbD (i - 1)
      else if i < 5 then p.hall.getLsbD (i - 2)
      else if i < 6 then (BitVec.ofBool p.rxValid).getLsbD (i - 5)
      else if i < 7 then (BitVec.ofBool p.wdtTick).getLsbD (i - 6)
      else (BitVec.ofBool p.overcurrent).getLsbD (i - 7) := by
  change BitVec.getLsbD (w := 1 + 1 + 1 + 3 + 1 + 1) _ i = _
  simp only [Ports.control, BitVec.getLsbD_append]
  grind

theorem Ports.control_extractLsb'_hall (p : Ports) : p.control.extractLsb' 2 3 = p.hall := by
  apply BitVec.eq_of_getLsbD_eq
  intro i hi
  have hbit : ¬ 2 + i < 1 ∧ ¬ 2 + i < 2 ∧ 2 + i < 5 := by omega
  simp [Ports.control_getLsbD, hbit, hi]

/-! ### Transaction words -/

/-- The six bytes of a sample hold the sample. -/
theorem Ports.ofBytes_toBytes (p : Ports) :
    Ports.ofBytes p.control p.rxByte (p.vbat.extractLsb' 0 8) (p.vbat.extractLsb' 8 8) (p.ibus.extractLsb' 0 8)
      (p.ibus.extractLsb' 8 8) = p := by
  simp only [Ports.ofBytes, Ports.control_getLsbD, Ports.control_extractLsb'_hall, Machine.half_bytes]
  simp

theorem decodePorts_toBytes (p : Ports) : decodePorts p.toBytes = p.transaction :=
  congrArg Ports.transaction p.ofBytes_toBytes

/-- The word of a sample decodes to the sample's transaction, under every configuration (R30, R508). -/
theorem decode_encodePorts (cfg : Config) (p : Ports) : decode cfg (encodePorts p) = p.transaction :=
  decodePorts_toBytes p

namespace Machine

/-- Idle ports offer no strobe to take. -/
theorem takeNext_of_idle {s : State} (h : idlePorts s.ports = true) : takeNext s = none := by
  obtain ⟨hrst, hpending⟩ : s.ports.rst = false ∧ pendingStrobes s.ports = [] := by simpa [idlePorts] using h
  simp [takeNext, hrst, hpending]

/-- With no sample to come, the ports keep what they show. -/
theorem arrive_of_no_inputs {s : State} (h : s.inputs = []) : arrive s = s := by
  simp [arrive, h]

/-- With nothing issued, the strobe that is taken runs its transaction (R6). -/
theorem step_takes_strobe {s t : State} {p : Ports} {i : Instr} (hissue : s.issue = [])
    (htake : takeNext (arrive s) = some (p, t)) (hi : p.transaction = .ok i) : step s = exec i t := by
  have hdecode : decode t.cfg (encodePorts p) = .ok i := (decode_encodePorts t.cfg p).trans hi
  rw [← runWord_ok hdecode]
  simp [step, fetch_ports hissue, htake]

/-- With nothing issued and no strobe to take, only the levels of a sample arrive (R518). -/
theorem step_takes_nothing {s : State} (hissue : s.issue = []) (hnone : takeNext (arrive s) = none) :
    step s = .next (arrive s) := by
  simp [step, fetch_ports hissue, hnone]

/-- A quiet state steps to itself (R518). -/
theorem step_of_quiet {s : State} (h : s.Quiet) : step s = .next s := by
  obtain ⟨hidle, hinputs, hissue⟩ := h
  have harrive : arrive s = s := arrive_of_no_inputs hinputs
  have hnone : takeNext (arrive s) = none := by rw [harrive]; exact takeNext_of_idle hidle
  rw [step_takes_nothing hissue hnone, harrive]

/-- Settles O1: each clause is the law of the step for one source of the operation: an issued word, a strobe taken,
nothing to take, the arrival of a sample, a quiet state. -/
theorem stepRunsTheTakenOperation : Obligations.StepRunsTheTakenOperation := by
  refine ⟨fun s i hissue hdecode => ?_, fun _ _ _ _ => step_takes_strobe, fun _ => step_takes_nothing,
    fun s => ?_, fun _ => step_of_quiet⟩
  · rw [step_issue hissue]
    exact runWord_ok hdecode
  · cases hinputs : s.inputs with
    | nil => exact arrive_of_no_inputs hinputs
    | cons p rest => simp [arrive, hinputs]

end Machine
end Sys2Proof
end

section
/-! SUPPORT. The meaning of every operation as one update of the state, and `exec` as that update under the guard of
60_exceptions.md R517. -/

namespace Sys2Proof.Machine

/-- What an operation does to a state in which it runs. `exec_of_ne_reset` and `exec_next` tie it to `exec`. -/
def opUpdate (i : Instr) (s : State) : State :=
  match i with
  | .reset => doReset s
  | .ctrlTick h oc => ctrlTick h { s with ports := { s.ports with overcurrent := oc } }
  | .rxByte b v u => rxParse b { s with ports := { s.ports with vbat := v, ibus := u } }
  | .wdtTick => wdtTick s
  | .hallStage c => hallStage c s
  | .hallDecode c => { s with result := .sector (hallDecode s.cfg c) }
  | .speedStage => speedStage s
  | .speedUpdate raw => { s with speed := speedUpdateRegs s.cfg raw.toInt s.speed }
  | .ctrlStage => ctrlStage s
  | .stepperStep => { s with ctrl := stepperStepRegs s.cfg s.ctrl }
  | .pidfEval => { s with ctrl := pidfRegs s.cfg s.speed.speedFilt s.ctrl }
  | .pwmFilter x => { s with ctrl := pwmFilterRegs s.cfg x.toInt s.ctrl }
  | .synthStage => synthStage s
  | .blockCommutate pwm k => { s with result := (blockCommutate s.cfg pwm.toInt k).toResult }
  | .sineCommutate m a => { s with result := (sineCommutate s.cfg m.toInt a.toInt).toResult }
  | .pulseClamp x => { s with result := .pulse (pulseClamp s.cfg x.toInt) }
  | .setPower v => setPower v.toInt s
  | .setSpeed v => setSpeed v.toInt s
  | .rxParse b => rxParse b s
  | .crc16 bytes => { s with result := .crc (crc16 bytes) }
  | .frameCheck len => { s with result := .valid (frameCheck s.cfg s.parser.buf len.val) }
  | .dispatch f => dispatch f s
  | .reply seq cid rid => reply seq cid rid s
  | .expire => expire s
  | .ena _ => cmdEna s
  | .dis _ => cmdDis s
  | .pow pl => cmdPow pl s
  | .dog pl => cmdDog pl s
  | .mod pl => cmdMod pl s
  | .res _ => cmdRes s
  | .spe pl => cmdSpe pl s
  | .xxx _ => cmdXxx s
  | .unknownCmd _ _ => s
  | .rspNor _ _ => s
  | .rspSpeed seq cid => sendReply (some .speed) seq cid s.cfg.rspCode.speed s
  | .rspPosition seq cid => sendReply (some .position) seq cid s.cfg.rspCode.position s
  | .rspBattery seq cid => sendReply (some .battery) seq cid s.cfg.rspCode.battery s
  | .rspCurrent seq cid => sendReply (some .current) seq cid s.cfg.rspCode.current s
  | .rspPwm seq cid => sendReply (some .pwm) seq cid s.cfg.rspCode.pwm s
  | .rspWatchdog seq cid => sendReply (some .watchdog) seq cid s.cfg.rspCode.watchdog s
  | .rspPidf seq cid => sendReply (some .pidf) seq cid s.cfg.rspCode.pidf s
  | .rspTelemetry seq cid => sendReply (some .telemetry) seq cid s.cfg.rspCode.telemetry s
  | .rspUnknown seq cid rid => sendReply none seq cid rid s

/-- Every operation but RESET is its update under the guard (R517). -/
theorem exec_of_ne_reset {i : Instr} (hi : i ≠ .reset) (s : State) : exec i s = runUpdate (opUpdate i) s := by
  cases i with
  | reset => exact absurd rfl hi
  | _ => rfl

/-- RESET, where it answers, is its update (R450). -/
theorem execReset_next {s t : State} (h : execReset s = .next t) : t = doReset s := by
  cases hc : s.cfg.check with
  | some flaw => simp [execReset, hc] at h
  | none =>
    rw [execReset_of hc] at h
    cases h
    rfl

/-- An operation that answers a next state has run its update. -/
theorem exec_next {i : Instr} {s t : State} (h : exec i s = .next t) : t = opUpdate i s := by
  by_cases hi : i = .reset
  · subst hi
    exact execReset_next h
  · rw [exec_of_ne_reset hi] at h
    exact (runUpdate_next h).2

end Sys2Proof.Machine
end

section
/-! SUPPORT. What every operation but RESET keeps: the build parameters (00_scope.md R8, 20_memory.md R81), the model's
input fields, and the bytes already sent (10_state.md R44). -/

namespace Sys2Proof.Machine

/-- `t` has the parameters and the model's input fields of `s`, and its `tx` is that of `s` with bytes appended. -/
structure OnlyAppends (s t : State) : Prop where
  cfg : t.cfg = s.cfg
  inputs : t.inputs = s.inputs
  issue : t.issue = s.issue
  orderCount : t.orderCount = s.orderCount
  tx : ∃ bytes, t.tx = s.tx ++ bytes

namespace OnlyAppends

/-- An update that writes none of the five fields. -/
theorem of_eq {s t : State} (cfg : t.cfg = s.cfg) (inputs : t.inputs = s.inputs) (issue : t.issue = s.issue)
    (orderCount : t.orderCount = s.orderCount) (tx : t.tx = s.tx) : OnlyAppends s t :=
  ⟨cfg, inputs, issue, orderCount, [], by rw [tx, List.append_nil]⟩

theorem refl (s : State) : OnlyAppends s s := of_eq rfl rfl rfl rfl rfl

/-- An update that chooses between two, as a command does by its condition (R409). -/
theorem ite {c : Prop} {_ : Decidable c} {s t u : State} (ht : OnlyAppends s t) (hu : OnlyAppends s u) :
    OnlyAppends s (if c then t else u) := by
  split
  · exact ht
  · exact hu

theorem trans {s t u : State} (h : OnlyAppends s t) (k : OnlyAppends t u) : OnlyAppends s u := by
  obtain ⟨bytes, hbytes⟩ := h.tx
  obtain ⟨more, hmore⟩ := k.tx
  refine ⟨k.cfg.trans h.cfg, k.inputs.trans h.inputs, k.issue.trans h.issue, k.orderCount.trans h.orderCount,
    bytes ++ more, ?_⟩
  rw [hmore, hbytes, List.append_assoc]

end OnlyAppends

/-! ### The commands -/

theorem onlyAppends_runCommand (c : Option CmdName) (pl : List Byte) (s : State) :
    OnlyAppends s (runCommand c pl s) := by
  cases c with
  | none => exact .refl s
  | some c =>
    cases c with
    | ena | dis | res | xxx => exact .of_eq rfl rfl rfl rfl rfl
    | pow | dog | mod | spe => exact .ite (.of_eq rfl rfl rfl rfl rfl) (.refl s)

/-! ### The reply, the dispatcher and the parser -/

/-- A reply appends its one frame (R430). -/
theorem onlyAppends_sendReply (r : Option RspName) (seq : BitVec 4) (cid rid : Byte) (s : State) :
    OnlyAppends s (sendReply r seq cid rid s) :=
  ⟨rfl, rfl, rfl, rfl, _, rfl⟩

theorem onlyAppends_dispatch (f : Frame) (s : State) : OnlyAppends s (dispatch f s) := by
  cases hf : filtered s.cfg f with
  | true => rw [dispatch_filtered hf]; exact .refl s
  | false =>
    have hreload : OnlyAppends s (reload s) := .of_eq rfl rfl rfl rfl rfl
    have hcommand := hreload.trans (onlyAppends_runCommand (s.cfg.cmdCode.lookup f.cid) f.payload _)
    by_cases hr : f.rid = s.cfg.rspCode.nor
    · rw [dispatch_quiet hf hr]
      exact hcommand
    · rw [dispatch_reply hf hr]
      exact hcommand.trans (onlyAppends_sendReply _ _ _ _ _)

theorem onlyAppends_rxParse (b : Byte) (s : State) : OnlyAppends s (rxParse b s) := by
  obtain ⟨p, -, h⟩ | ⟨p, f, -, -, h⟩ := rxParse_cases b s
  · rw [h]
    exact .of_eq rfl rfl rfl rfl rfl
  · have hparser : OnlyAppends s { s with parser := p } := .of_eq rfl rfl rfl rfl rfl
    rw [h]
    exact hparser.trans (onlyAppends_dispatch f _)

/-! ### The watchdog -/

/-- WDT_TICK holds, counts, or counts and expires (R465). -/
theorem onlyAppends_wdtTick (s : State) : OnlyAppends s (wdtTick s) :=
  have hcount : OnlyAppends s { s with safety := { s.safety with wdtCnt := s.safety.wdtCnt - 1#16 } } :=
    .of_eq rfl rfl rfl rfl rfl
  have hexpire (u : State) : OnlyAppends u (expire u) := .of_eq rfl rfl rfl rfl rfl
  .ite (.refl s) (.ite (.refl s) (.ite (hcount.trans (hexpire _)) hcount))

/-! ### Every operation -/

/-- Every operation but RESET keeps the parameters and the input fields and only appends to `tx`: those that reach the
reply encoder append its frame, the others write registers, ports or the result only. -/
theorem onlyAppends_opUpdate {i : Instr} (hi : i ≠ .reset) (s : State) : OnlyAppends s (opUpdate i s) := by
  cases i with
  | reset => exact absurd rfl hi
  | ctrlTick | hallStage | hallDecode | speedStage | speedUpdate | ctrlStage | stepperStep | pidfEval | pwmFilter
  | synthStage | blockCommutate | sineCommutate | pulseClamp | setPower | setSpeed | crc16 | frameCheck | expire
  | ena | dis | res | xxx | unknownCmd | rspNor => exact .of_eq rfl rfl rfl rfl rfl
  | rxByte b v u =>
    have hlevels : OnlyAppends s { s with ports := { s.ports with vbat := v, ibus := u } } :=
      .of_eq rfl rfl rfl rfl rfl
    exact hlevels.trans (onlyAppends_rxParse b _)
  | wdtTick => exact onlyAppends_wdtTick s
  | rxParse b => exact onlyAppends_rxParse b s
  | dispatch f => exact onlyAppends_dispatch f s
  | pow pl => exact onlyAppends_runCommand (some .pow) pl s
  | dog pl => exact onlyAppends_runCommand (some .dog) pl s
  | mod pl => exact onlyAppends_runCommand (some .mod) pl s
  | spe pl => exact onlyAppends_runCommand (some .spe) pl s
  | reply | rspSpeed | rspPosition | rspBattery | rspCurrent | rspPwm | rspWatchdog | rspPidf | rspTelemetry
  | rspUnknown => exact onlyAppends_sendReply _ _ _ _ _

/-- Settles O60: RESET keeps the parameters and the input fields by its definition; every other operation only
appends. -/
theorem parametersAreFixedAndTxOnlyGrows : Obligations.ParametersAreFixedAndTxOnlyGrows := by
  intro i s t h
  obtain rfl := exec_next h
  by_cases hi : i = .reset
  · subst hi
    exact ⟨rfl, rfl, rfl, rfl, fun hne => absurd rfl hne⟩
  · obtain ⟨hcfg, hinputs, hissue, horder, htx⟩ := onlyAppends_opUpdate hi s
    exact ⟨hcfg, hinputs, hissue, horder, fun _ => htx⟩

end Sys2Proof.Machine
end

section
/-! SUPPORT. The registers keep their ranges (10_state.md R32 to R35): one lemma per update of the decoder, the
estimator, the controller and the synthesizer. -/

namespace Sys2Proof

/-! ### Bounds of a legal configuration -/

theorem Config.Legal.speedTicksFactor_pos {c : Config} (h : c.Legal) : 1 ≤ c.speedTicksFactor := by
  obtain ⟨h, _⟩ := (Config.inDomain_iff c).mp h.2
  simp only [Config.numbersOk, Bool.and_eq_true, decide_eq_true_eq] at h
  omega

/-- The bounds PB2 to PB4 on the three terms of the PIDF controller (R9). -/
theorem Config.Legal.pidfBounds {c : Config} (h : c.Legal) :
    c.eMax * c.kp.natAbs < 2 ^ 31 ∧ (c.iLimit : Int) < 2 ^ 31 ∧ speedSpMax * c.kf.natAbs + c.kfo.natAbs < 2 ^ 31 := by
  obtain ⟨_, _, hp, hi, hf, _⟩ := (Config.check_iff c).mp h.1
  have hki : 0 ≤ c.eMax * c.ki.natAbs := mul_nonneg (by simp only [Config.eMax, speedSpMax]; omega) (by omega)
  exact ⟨hp, by omega, hf⟩

/-- The signs of a BLOCK_TABLE row are -1, 0 or +1 (R105). -/
theorem Signs.within_of_legal {r : Signs} (h : r.legal = true) :
    Machine.Within 1 r.y ∧ Machine.Within 1 r.b ∧ Machine.Within 1 r.g := by
  simp only [Signs.legal, List.contains_iff_mem, List.mem_cons, List.not_mem_nil, or_false] at h
  rcases h with rfl | rfl | rfl | rfl | rfl | rfl <;> decide

namespace Machine

/-! ### Values within a bound -/

theorem Within.mono {a b v : Int} (h : Within a v) (hab : a ≤ b) : Within b v := by
  obtain ⟨h1, h2⟩ := h
  constructor <;> omega

theorem Within.add {a b v w : Int} (hv : Within a v) (hw : Within b w) : Within (a + b) (v + w) := by
  obtain ⟨h1, h2⟩ := hv
  obtain ⟨h3, h4⟩ := hw
  constructor <;> omega

theorem Within.mul {a b v w : Int} (hv : Within a v) (hw : Within b w) : Within (a * b) (v * w) := by
  have hv : |v| ≤ a := abs_le.mpr hv
  have hw : |w| ≤ b := abs_le.mpr hw
  refine abs_le.mp ?_
  rw [abs_mul]
  exact mul_le_mul hv hw (abs_nonneg w) ((abs_nonneg v).trans hv)

theorem within_zero {a : Int} (ha : 0 ≤ a) : Within a 0 := by
  constructor <;> omega

theorem inInt32_zero : InInt32 0 := by decide

theorem within_natAbs (v : Int) : Within v.natAbs v := by
  constructor <;> omega

theorem Within.tdiv {a v b : Int} (h : Within a v) (hb : 1 ≤ b) : Within a (tdiv v b) := by
  have habs : (v.tdiv b).natAbs ≤ v.natAbs := by
    rw [Int.natAbs_tdiv]
    exact Nat.div_le_self _ _
  rw [tdiv_of_ne_zero (by omega)]
  obtain ⟨h1, h2⟩ := h
  constructor <;> omega

theorem Within.asr {a v : Int} (h : Within a v) (n : Nat) : Within a (asr v n) := by
  obtain ⟨h1, h2⟩ := h
  have hp : (1 : Int) ≤ 2 ^ n := one_le_pow₀ (by norm_num)
  constructor
  · exact Int.le_ediv_of_mul_le (by omega) (by nlinarith)
  · exact Int.ediv_le_of_le_mul (by omega) (by nlinarith)

theorem Within.inInt32 {a v : Int} (h : Within a v) (ha : a < 2 ^ 31) : InInt32 v := by
  obtain ⟨h1, h2⟩ := h
  constructor <;> omega

theorem within_clamp {a : Int} (ha : 0 ≤ a) (v : Int) : Within a (clamp v (-a) a) := clamp_within (by omega) v

theorem within_sgn (v : Int) : Within 1 (sgn v) := by
  obtain ⟨_, h⟩ | ⟨_, h⟩ | ⟨_, h⟩ := sgn_cases v <;> rw [h] <;> decide

/-! ### The decoder -/

/-- HALL_STAGE keeps the decoder's invariants (R209): an invalid code only clears the transition, the first valid code
only sets the sector, and a later one moves the odometer within int32. -/
theorem hallStageRegs_inv {h : HallRegs} (hi : h.Inv) (cfg : Config) (c : BitVec 3) : (hallStageRegs cfg c h).Inv := by
  obtain ⟨hodo, hstill, -, -, -⟩ := hi
  have htr : ∀ d : Fin 6, (d == 1 || d == 5) = true → (d != 0) = true := by decide
  simp only [hallStageRegs]
  split
  · exact ⟨hodo, hstill, by simp, by simp, by simp⟩
  · split
    · exact ⟨hodo, by simp, by simp, by simp, by simp⟩
    · refine ⟨?_, by simp, htr _, by simp, by simp⟩
      dsimp only
      split
      · exact wrap32_range _
      · split
        · exact wrap32_range _
        · exact hodo

/-! ### The estimator -/

/-- The raw speed of a tick is at most SPEED_TICKS_FACTOR, the speed at period 1 (R274). -/
theorem rawSpeed_within {cfg : Config} {period : Nat} (hp : 1 ≤ period) (dir : Direction) :
    Within cfg.speedTicksFactor (rawSpeed cfg period dir) := by
  have hquot : Within cfg.speedTicksFactor (tdiv cfg.speedTicksFactor period) :=
    Within.tdiv ⟨by omega, le_refl _⟩ (by omega)
  have hdir : Within 1 dir.toInt := by cases dir <;> decide
  simp only [rawSpeed]
  split
  · constructor <;> omega
  · simpa using hquot.mul hdir

/-- SPEED_UPDATE keeps the estimator's ranges for every raw speed within ±SPEED_TICKS_FACTOR (R275). -/
theorem speedUpdateRegs_inv {cfg : Config} {r : SpeedRegs} {raw : Int} (h : r.Inv cfg)
    (hraw : Within cfg.speedTicksFactor raw) : (speedUpdateRegs cfg raw r).Inv cfg := by
  obtain ⟨hcnt, hper, hper', hreg, -⟩ := h
  exact ⟨hcnt, hper, hper', filter_keeps_range hraw hreg, rfl⟩

/-- The cleared filter register lies in its range (R277, R550). -/
theorem filterRange_zero {v : Int} (hv : 1 ≤ v) (n : Nat) : FilterRange v n 0 := by
  have hp : (1 : Int) ≤ 2 ^ n := one_le_pow₀ (by norm_num)
  constructor <;> nlinarith

/-- The stalled estimator, at standstill and after RESET (R277, R551). -/
theorem stalled_inv {cfg : Config} (hl : cfg.Legal) : (SpeedRegs.reset cfg).Inv cfg := by
  have hmax := hl.maxPhasePeriod_pos.1
  have hv := hl.speedTicksFactor_pos
  refine ⟨le_refl _, hmax, le_refl _, filterRange_zero (by omega) _, ?_⟩
  simp [SpeedRegs.reset, asr]

/-- SPEED_STAGE keeps the estimator's ranges: on a transition, at standstill, and between transitions (R279). -/
theorem speedStageRegs_inv {cfg : Config} {r : SpeedRegs} (hl : cfg.Legal) (h : r.Inv cfg) (transition : Bool)
    (dir : Direction) : (speedStageRegs cfg transition dir r).Inv cfg := by
  obtain ⟨-, hper, hper', hreg, hfilt⟩ := h
  have hmax := hl.maxPhasePeriod_pos.1
  simp only [speedStageRegs]
  split
  · have hcnt : 1 ≤ min (r.phaseCnt + 1) cfg.maxPhasePeriod := by omega
    exact speedUpdateRegs_inv ⟨Nat.zero_le _, hcnt, Nat.min_le_right _ _, hreg, hfilt⟩ (rawSpeed_within hcnt dir)
  · split
    · rename_i hstall
      rw [hstall]
      exact stalled_inv hl
    · exact speedUpdateRegs_inv ⟨Nat.min_le_right _ _, hper, hper', hreg, hfilt⟩ (rawSpeed_within hper dir)

theorem SpeedRegs.Inv.speedFilt_within {cfg : Config} {r : SpeedRegs} (h : r.Inv cfg) :
    Within cfg.speedTicksFactor r.speedFilt := by
  obtain ⟨-, -, -, hreg, hfilt⟩ := h
  rw [hfilt]
  exact filter_output hreg

/-! ### The controller's ranges -/

theorem sectorAngle_range (cfg : Config) (k : Fin 6) : 0 ≤ sectorAngle cfg k ∧ sectorAngle cfg k ≤ 359 := by
  simp only [sectorAngle]
  omega

theorem setPowerRegs_ranges {cfg : Config} {r : CtrlRegs} (h : r.Ranges cfg) (v : Int) :
    (setPowerRegs v r).Ranges cfg := by
  obtain ⟨-, -, -, -, -, -, -, -, hreg, hout, ha0, ha1, -⟩ := h
  exact ⟨within_clamp (by decide) v, within_zero (by decide), within_zero (by decide), within_zero (by omega),
    inInt32_zero, inInt32_zero, inInt32_zero, within_zero (by decide), hreg, hout, ha0, ha1, Nat.zero_le _⟩

theorem enterStepper_ranges {cfg : Config} {r : CtrlRegs} (h : r.Ranges cfg) (k : Fin 6) :
    (enterStepper cfg k r).Ranges cfg := by
  obtain ⟨hin, hsp, hlast, hint, hp, hi, hf, hpid, hreg, hout, -, -, -⟩ := h
  obtain ⟨ha0, ha1⟩ := sectorAngle_range cfg k
  exact ⟨hin, hsp, hlast, hint, hp, hi, hf, hpid, hreg, hout, ha0, ha1, Nat.zero_le _⟩

/-- SetSpeed keeps the ranges: beside the clamped setpoint it writes zeros, modes and the entry angle (R302 to R308). -/
theorem setSpeedRegs_ranges {cfg : Config} {r : CtrlRegs} (h : r.Ranges cfg) (hall : HallRegs) (th : Half) (v : Int) :
    (setSpeedRegs cfg hall th v r).Ranges cfg := by
  have hv : Within speedSpMax (clamp v (-speedSpMax) speedSpMax) := within_clamp (by decide) v
  have hnew : ({ r with setpoint := clamp v (-speedSpMax) speedSpMax } : CtrlRegs).Ranges cfg := by
    obtain ⟨hin, -, hrest⟩ := h
    exact ⟨hin, hv, hrest⟩
  simp only [setSpeedRegs]
  split
  · obtain ⟨-, -, hlast, -, hp, hi, hf, hpid, hreg, hout, ha0, ha1, -⟩ := h
    exact ⟨within_zero (by decide), within_zero (by decide), hlast, within_zero (by omega), hp, hi, hf, hpid, hreg,
      hout, ha0, ha1, Nat.zero_le _⟩
  · split
    · exact hnew
    · split
      · exact hnew
      · split
        · exact enterStepper_ranges hnew hall.sector
        · obtain ⟨hin, hsp, hlast, hint, hp, hi, hf, hpid, hreg, hout, ha0, ha1, -⟩ := hnew
          exact ⟨hin, hsp, hlast, hint, hp, hi, hf, hpid, hreg, hout, ha0, ha1, Nat.zero_le _⟩
      · exact hnew

theorem phaseRestart_ranges {cfg : Config} {r : CtrlRegs} (h : r.Ranges cfg) (hall : HallRegs) :
    (phaseRestart cfg hall r).Ranges cfg := by
  simp only [phaseRestart]
  split
  · exact enterStepper_ranges h hall.sector
  · exact h

theorem stepperStepRegs_ranges {cfg : Config} {r : CtrlRegs} (h : r.Ranges cfg) :
    (stepperStepRegs cfg r).Ranges cfg := by
  obtain ⟨hin, hsp, hlast, hint, hp, hi, hf, hpid, hreg, hout, ha0, ha1, -⟩ := h
  simp only [stepperStepRegs]
  split
  · exact ⟨hin, hsp, hlast, hint, hp, hi, hf, hpid, hreg, hout, Int.emod_nonneg _ (by decide),
      Int.le_sub_one_of_lt (Int.emod_lt_of_pos _ (by decide)), Nat.zero_le _⟩
  · exact ⟨hin, hsp, hlast, hint, hp, hi, hf, hpid, hreg, hout, ha0, ha1, Nat.min_le_right _ _⟩

/-- PIDF_EVAL keeps the ranges: PB2 to PB4 keep the three terms in int32, the integral and the output are clamped
(R9, R320 to R326). -/
theorem pidfRegs_ranges {cfg : Config} {r : CtrlRegs} {speedFilt : Int} (hl : cfg.Legal) (h : r.Ranges cfg)
    (hspeed : Within cfg.speedTicksFactor speedFilt) : (pidfRegs cfg speedFilt r).Ranges cfg := by
  obtain ⟨hin, hsp, -, hint, -, -, -, -, hreg, hout, ha0, ha1, hstep⟩ := h
  obtain ⟨hkp, hlimit, hkf⟩ := hl.pidfBounds
  have herr : Within cfg.eMax (r.setpoint - speedFilt) := by
    simp only [Within, Config.eMax] at hsp hspeed ⊢
    omega
  have hp : InInt32 (asr ((r.setpoint - speedFilt) * cfg.kp) gainShift) :=
    ((herr.mul (within_natAbs cfg.kp)).asr gainShift).inInt32 hkp
  have hf : InInt32 (asr (r.setpoint * cfg.kf + sgn r.setpoint * cfg.kfo) gainShift) :=
    (((hsp.mul (within_natAbs cfg.kf)).add ((within_sgn r.setpoint).mul (within_natAbs cfg.kfo))).asr
      gainShift).inInt32 (by omega)
  have hint' : Within cfg.iLimit (pidfRegs cfg speedFilt r).integral := by
    simp only [pidfRegs]
    split
    · constructor <;> omega
    · exact within_clamp (by omega) _
  exact ⟨hin, hsp, hsp, hint', hp, (hint'.asr gainShift).inInt32 hlimit, hf, within_clamp (by decide) _, hreg, hout,
    ha0, ha1, hstep⟩

/-- PWM_FILTER keeps the ranges for every input within ±1000 (R327). -/
theorem pwmFilterRegs_ranges {cfg : Config} {r : CtrlRegs} {x : Int} (h : r.Ranges cfg) (hx : Within pwmInMax x) :
    (pwmFilterRegs cfg x r).Ranges cfg := by
  obtain ⟨hin, hsp, hlast, hint, hp, hi, hf, hpid, hreg, -, ha0, ha1, hstep⟩ := h
  exact ⟨hin, hsp, hlast, hint, hp, hi, hf, hpid, filter_keeps_range hx hreg, rfl, ha0, ha1, hstep⟩

theorem driveRegs_ranges {cfg : Config} {r : CtrlRegs} {speedFilt : Int} (hl : cfg.Legal) (h : r.Ranges cfg)
    (hspeed : Within cfg.speedTicksFactor speedFilt) : (driveRegs cfg speedFilt r).Ranges cfg := by
  simp only [driveRegs]
  split
  · obtain ⟨hin, -⟩ := id h
    exact pwmFilterRegs_ranges h hin
  · exact pwmFilterRegs_ranges (pidfRegs_ranges hl h hspeed) (within_clamp (by decide) _)

theorem ctrlStageRegs_ranges {cfg : Config} {r : CtrlRegs} {speedFilt : Int} (hl : cfg.Legal) (h : r.Ranges cfg)
    (hall : HallRegs) (hspeed : Within cfg.speedTicksFactor speedFilt) :
    (ctrlStageRegs cfg hall speedFilt r).Ranges cfg := by
  have hrestart := phaseRestart_ranges h hall
  simp only [ctrlStageRegs]
  split
  · exact driveRegs_ranges hl (stepperStepRegs_ranges hrestart) hspeed
  · exact driveRegs_ranges hl hrestart hspeed

/-! ### The controller's mode -/

theorem setPowerRegs_modes (v : Int) (r : CtrlRegs) : (setPowerRegs v r).Modes := by simp [CtrlRegs.Modes]

/-- SetSpeed keeps R331: it leaves OPEN exactly with a nonzero setpoint, and defers a restart only in RUNNING. -/
theorem setSpeedRegs_modes {r : CtrlRegs} (h : r.Modes) (cfg : Config) (hall : HallRegs) (th : Half) (v : Int) :
    (setSpeedRegs cfg hall th v r).Modes := by
  obtain ⟨hpend, hopen⟩ := h
  obtain ⟨-, hm, hs, hr⟩ | ⟨hw, hs, hcases⟩ := setSpeedRegs_cases cfg hall th v r
  · simp [CtrlRegs.Modes, hm, hs, hr]
  · obtain ⟨-, hm, hr⟩ | ⟨-, -, hm, hr⟩ | ⟨-, hwas, hm, hr⟩ | ⟨-, hwas, hq⟩ := hcases
    · simp [CtrlRegs.Modes, hm, hs, hw]
    · simp [CtrlRegs.Modes, hm, hs, hw]
    · have hidle : r.restartPending = false := by simpa [hwas] using hpend
      simp [CtrlRegs.Modes, hm, hs, hw, hr, hidle]
    · have hidle : r.restartPending = false := by simpa [hwas] using hpend
      simp [CtrlRegs.Modes, hq, hwas, hw, hidle]

/-- The restart leaves RUNNING for STEPPER with the restart done, so it keeps R331. -/
theorem phaseRestart_modes {r : CtrlRegs} (h : r.Modes) (cfg : Config) (hall : HallRegs) :
    (phaseRestart cfg hall r).Modes := by
  obtain ⟨-, hopen⟩ := id h
  simp only [phaseRestart]
  split
  · rename_i hrun
    obtain ⟨-, -, hm⟩ := hrun
    have hsp : r.setpoint ≠ 0 := fun h0 => by simp [hopen.mpr h0] at hm
    simp [CtrlRegs.Modes, hsp]
  · exact h

/-! ### What the stages of a tick leave of the controller -/

@[simp] theorem stepperStepRegs_mode (cfg : Config) (r : CtrlRegs) :
    (stepperStepRegs cfg r).mode = r.mode := by
  simp only [stepperStepRegs]
  split <;> rfl

@[simp] theorem stepperStepRegs_restartPending (cfg : Config) (r : CtrlRegs) :
    (stepperStepRegs cfg r).restartPending = r.restartPending := by
  simp only [stepperStepRegs]
  split <;> rfl

@[simp] theorem stepperStepRegs_pwmInput (cfg : Config) (r : CtrlRegs) :
    (stepperStepRegs cfg r).pwmInput = r.pwmInput := by
  simp only [stepperStepRegs]
  split <;> rfl

@[simp] theorem stepperStepRegs_setpoint (cfg : Config) (r : CtrlRegs) :
    (stepperStepRegs cfg r).setpoint = r.setpoint := by
  simp only [stepperStepRegs]
  split <;> rfl

@[simp] theorem driveRegs_mode (cfg : Config) (v : Int) (r : CtrlRegs) :
    (driveRegs cfg v r).mode = r.mode := by
  simp only [driveRegs]
  split <;> rfl

@[simp] theorem driveRegs_restartPending (cfg : Config) (v : Int) (r : CtrlRegs) :
    (driveRegs cfg v r).restartPending = r.restartPending := by
  simp only [driveRegs]
  split <;> rfl

@[simp] theorem driveRegs_pwmInput (cfg : Config) (v : Int) (r : CtrlRegs) :
    (driveRegs cfg v r).pwmInput = r.pwmInput := by
  simp only [driveRegs]
  split <;> rfl

@[simp] theorem driveRegs_setpoint (cfg : Config) (v : Int) (r : CtrlRegs) :
    (driveRegs cfg v r).setpoint = r.setpoint := by
  simp only [driveRegs]
  split <;> rfl

@[simp] theorem phaseRestart_pwmInput (cfg : Config) (hall : HallRegs) (r : CtrlRegs) :
    (phaseRestart cfg hall r).pwmInput = r.pwmInput := by
  simp only [phaseRestart]
  split <;> rfl

@[simp] theorem phaseRestart_setpoint (cfg : Config) (hall : HallRegs) (r : CtrlRegs) :
    (phaseRestart cfg hall r).setpoint = r.setpoint := by
  simp only [phaseRestart]
  split <;> rfl

/-- The stages after the restart leave the mode as the restart left it (R309). -/
@[simp] theorem ctrlStageRegs_mode (cfg : Config) (hall : HallRegs) (v : Int) (r : CtrlRegs) :
    (ctrlStageRegs cfg hall v r).mode = (phaseRestart cfg hall r).mode := by
  simp only [ctrlStageRegs, driveRegs_mode]
  split <;> simp

@[simp] theorem ctrlStageRegs_restartPending (cfg : Config) (hall : HallRegs) (v : Int) (r : CtrlRegs) :
    (ctrlStageRegs cfg hall v r).restartPending = (phaseRestart cfg hall r).restartPending := by
  simp only [ctrlStageRegs, driveRegs_restartPending]
  split <;> simp

@[simp] theorem ctrlStageRegs_pwmInput (cfg : Config) (hall : HallRegs) (v : Int) (r : CtrlRegs) :
    (ctrlStageRegs cfg hall v r).pwmInput = r.pwmInput := by
  simp only [ctrlStageRegs, driveRegs_pwmInput]
  split <;> simp

@[simp] theorem ctrlStageRegs_setpoint (cfg : Config) (hall : HallRegs) (v : Int) (r : CtrlRegs) :
    (ctrlStageRegs cfg hall v r).setpoint = r.setpoint := by
  simp only [ctrlStageRegs, driveRegs_setpoint]
  split <;> simp

/-- CTRL_STAGE keeps R331: only its restart changes the mode. -/
theorem ctrlStageRegs_modes {r : CtrlRegs} (h : r.Modes) (cfg : Config) (hall : HallRegs) (v : Int) :
    (ctrlStageRegs cfg hall v r).Modes := by
  have hrestart := phaseRestart_modes h cfg hall
  simpa [CtrlRegs.Modes] using hrestart

/-! ### The synthesizer -/

/-- BLOCK_COMMUTATE drives every phase within the PWM value's bound (R230, R35). -/
theorem blockCommutate_within {cfg : Config} {a v : Int} (hl : cfg.Legal) (hv : Within a v) (k : Fin 6) :
    Within a (blockCommutate cfg v k).y ∧ Within a (blockCommutate cfg v k).b ∧
      Within a (blockCommutate cfg v k).g := by
  obtain ⟨hy, hb, hg⟩ := Signs.within_of_legal (hl.blockRow k).2
  rw [← one_mul a]
  exact ⟨hy.mul hv, hb.mul hv, hg.mul hv⟩

/-- A magnitude within ±1000 drives a sine phase within ±125000: 1000 of the table times 1000 >> SINE_SHIFT (R232). -/
theorem sinePhase_within {cfg : Config} {m : Int} (hl : cfg.Legal) (hm : Within pwmInMax m) (a : Int) :
    Within 125000 (sinePhase cfg m a) := by
  obtain ⟨-, hsine⟩ := hl.sine a 0
  have hnorm := hl.sineNorm_pos
  have hscaled : Within 125 (asr m sineShift) := by
    obtain ⟨h1, h2⟩ := hm
    simp only [pwmInMax] at h1 h2
    simp only [asr, sineShift]
    constructor <;> omega
  have hprod : Within (1000 * 125) (sineLut cfg a * asr m sineShift) := Within.mul hsine hscaled
  exact hprod.tdiv (by omega)

/-- The waveform of a tick stays within R35's range, in every mode. -/
theorem synthPhases_within {s : State} (hl : s.cfg.Legal) (hv : Within pwmInMax s.ctrl.pwmOut) :
    Within 125000 (synthPhases s).y ∧ Within 125000 (synthPhases s).b ∧ Within 125000 (synthPhases s).g := by
  have hsine (m : Int) (hm : Within pwmInMax m) (a : Int) :
      Within 125000 (sineCommutate s.cfg m a).y ∧ Within 125000 (sineCommutate s.cfg m a).b ∧
        Within 125000 (sineCommutate s.cfg m a).g :=
    ⟨sinePhase_within hl hm _, sinePhase_within hl hm _, sinePhase_within hl hm _⟩
  simp only [synthPhases]
  split
  · exact hsine _ hv _
  · split
    · decide
    · split
      · exact blockCommutate_within hl (hv.mono (by decide)) _
      · exact hsine _ hv _

/-- A compare value between the margins stands at its port within them (R30, R240). -/
theorem pulseRange_of_margins {cfg : Config} {p : Int} (h1 : pwmMargin ≤ p) (h2 : p ≤ cfg.pwmRes - pwmMargin) :
    PulseRange cfg (pulsePort p) := by
  obtain ⟨h3, h4⟩ := pulsePort_range h1
  exact ⟨h3, h4.trans h2⟩

theorem pulseRange_pulseClamp {cfg : Config} (hl : cfg.Legal) (x : Int) :
    PulseRange cfg (pulsePort (pulseClamp cfg x)) := by
  have hres := hl.pwmRes
  obtain ⟨h1, h2⟩ :=
    clamp_within (show pwmMargin ≤ cfg.pwmRes - pwmMargin by simp only [pwmMargin]; omega) (x + halfScale cfg)
  exact pulseRange_of_margins h1 h2

theorem synthRegs_inv {cfg : Config} {p : Phases} (hl : cfg.Legal) (hy : Within 125000 p.y) (hb : Within 125000 p.b)
    (hg : Within 125000 p.g) : (synthRegs cfg p).Inv cfg :=
  ⟨hy, hb, hg, pulseRange_pulseClamp hl _, pulseRange_pulseClamp hl _, pulseRange_pulseClamp hl _⟩

theorem CtrlRegs.Ranges.pwmOut_within {cfg : Config} {r : CtrlRegs} (h : r.Ranges cfg) : Within pwmInMax r.pwmOut := by
  obtain ⟨-, -, -, -, -, -, -, -, hreg, hout, -⟩ := h
  rw [hout]
  exact filter_output hreg

end Machine
end Sys2Proof
end

section
/-! SUPPORT. The parser keeps its invariant (44_frame_parser.md R360 to R366). -/

namespace Sys2Proof.Machine

/-- What the check loop finds in RECORDING: a canonical buffer of at most 17 bytes that begins with SOM (R80, R362). The
length may be illegal or the frame complete, which the loop settles. -/
structure Parser.Recorded (p : Parser) : Prop where
  wf : Memory.wf p.buf = true
  recording : p.recording = true
  pos : 1 ≤ p.idx
  fits : p.idx ≤ bufSize
  som : Memory.read p.buf 0 = som

theorem Parser.idle_inv {p : Parser} (h : Memory.wf p.buf = true) : p.idle.Inv :=
  ⟨h, fun _ => rfl, by simp [Parser.idle]⟩

/-- A SOM brings the parser from IDLE into RECORDING with one byte held (R361). -/
theorem Parser.start_inv {p : Parser} (h : p.Inv) :
    ({ recording := true, idx := 1, buf := Memory.write p.buf 0 som } : Parser).Inv := by
  obtain ⟨hwf, -, -⟩ := h
  refine ⟨Memory.wf_write 0 som hwf, by simp, fun _ => ⟨le_refl 1, ?_, by simp⟩⟩
  rw [Memory.read_write _ hwf (by decide), if_pos rfl]

/-- In RECORDING a byte always fits: the frame is incomplete, so the next offset lies in the buffer (R80). -/
theorem Parser.append_recorded {p : Parser} (h : p.Inv) (hr : p.recording = true) (b : Byte) :
    ({ p with buf := Memory.write p.buf p.idx b, idx := p.idx + 1 } : Parser).Recorded := by
  obtain ⟨hwf, -, hrec⟩ := h
  obtain ⟨hpos, hsom, hlen⟩ := hrec hr
  have hfits : p.idx < bufSize := by
    simp only [maxPayload, frameOverhead] at hlen
    simp only [bufSize, maxPayload, frameOverhead]
    omega
  refine ⟨Memory.wf_write _ _ hwf, hr, by simp, hfits, ?_⟩
  dsimp only
  rw [Memory.read_write _ hwf hfits, if_neg (by omega), hsom]

/-- The shift to the next SOM puts it at the front (R365). -/
theorem Parser.shift_recorded {p : Parser} {j : Nat} (h : p.Recorded) (hj : nextSom p.buf p.idx = some j) :
    ({ p with buf := Memory.shiftLeft p.buf j (p.idx - j), idx := p.idx - j } : Parser).Recorded := by
  obtain ⟨hj1, hj2, hsom⟩ := nextSom_range hj
  have hfits : p.idx - j ≤ bufSize := (Nat.sub_le _ _).trans h.fits
  refine ⟨Memory.wf_shiftLeft _ _ h.wf, h.recording, by dsimp only; omega, hfits, ?_⟩
  dsimp only
  rw [Memory.read_shiftLeft _ h.wf hfits hj1, if_pos (by omega), Nat.zero_add, hsom]

/-- The check loop ends with the parser's invariant: it waits for an incomplete frame of legal length, or goes back to
IDLE (R362 to R366). -/
theorem checkLoop_inv {cfg : Config} {n : Nat} {p : Parser} (h : p.Recorded) (hn : p.idx ≤ n) :
    (checkLoop cfg n p).1.Inv := by
  induction n generalizing p with
  | zero => exact absurd h.pos (by omega)
  | succ n ih =>
    have hwait (hlen : 2 ≤ p.idx → (Memory.read p.buf 1).toNat ≤ maxPayload ∧
        p.idx < (Memory.read p.buf 1).toNat + frameOverhead) : p.Inv :=
      ⟨h.wf, by simp [h.recording], fun _ => ⟨h.pos, h.som, hlen⟩⟩
    simp only [checkLoop]
    split
    · exact hwait (by omega)
    · split
      · exact Parser.idle_inv h.wf
      · split
        · exact hwait (by omega)
        · split
          · exact Parser.idle_inv h.wf
          · split
            · exact Parser.idle_inv h.wf
            · rename_i j hj
              obtain ⟨hj1, -, -⟩ := nextSom_range hj
              exact ih (Parser.shift_recorded h hj) (by dsimp only; omega)

/-- RX_PARSE keeps the parser's invariant for every byte (R360 to R366). -/
theorem parseByte_inv {p : Parser} (h : p.Inv) (cfg : Config) (b : Byte) : (parseByte cfg b p).1.Inv := by
  simp only [parseByte]
  split
  · split
    · rename_i hb
      rw [hb]
      exact Parser.start_inv h
    · exact h
  · rename_i hr
    exact checkLoop_inv (Parser.append_recorded h (by simpa using hr) b) (le_refl _)

end Sys2Proof.Machine
end

section
/-! SUPPORT. What DISPATCH, RX_PARSE and WDT_TICK can do, as rules for a property of the state (45_command_dispatcher.md
R400, 44_frame_parser.md R366, 46_top_level_events.md R465). -/

namespace Sys2Proof.Machine

/-- A property survives a command when it survives each effect that a command can have (R401 to R409); a malformed
payload and an unknown id have none. -/
theorem runCommand_induct {P : State → Prop} {s : State} (h : P s) (ena : P (cmdEna s)) (dis : P (cmdDis s))
    (pow : ∀ v, P (setPower v s))
    (dog : ∀ n, P { s with conf := { s.conf with wdtInterval := n }, safety := { s.safety with wdtCnt := n } })
    (mod : ∀ w th, P { s with conf := { s.conf with commMode := w, stepThresh := th } }) (res : P (cmdRes s))
    (spe : ∀ v, P (setSpeed v s)) (xxx : P (cmdXxx s)) (c : Option CmdName) (pl : List Byte) :
    P (runCommand c pl s) := by
  have hite {q : Prop} [Decidable q] {t : State} (ht : P t) : P (if q then t else s) := by
    split
    · exact ht
    · exact h
  cases c with
  | none => exact h
  | some c =>
    cases c with
    | ena => exact ena
    | dis => exact dis
    | pow => exact hite (pow _)
    | dog => exact hite (dog _)
    | mod => exact hite (mod _ _)
    | res => exact res
    | spe => exact hite (spe _)
    | xxx => exact xxx

/-- A property survives DISPATCH when it survives a command after the reload, and a reply. -/
theorem dispatch_induct {P : State → Prop} {f : Frame} {s : State} (h : P s)
    (hcommand : ∀ c, P (runCommand c f.payload (reload s)))
    (hreply : ∀ u, P u → P (reply f.seq f.cid f.rid u)) : P (dispatch f s) := by
  cases hf : filtered s.cfg f with
  | true => rwa [dispatch_filtered hf]
  | false =>
    by_cases hr : f.rid = s.cfg.rspCode.nor
    · rw [dispatch_quiet hf hr]
      exact hcommand _
    · rw [dispatch_reply hf hr]
      exact hreply _ (hcommand _)

/-- A property survives RX_PARSE when it survives the parser's own step, and a dispatch. -/
theorem rxParse_induct {P : State → Prop} {b : Byte} {s : State}
    (hparser : P { s with parser := (parseByte s.cfg b s.parser).1 }) (hdispatch : ∀ f u, P u → P (dispatch f u)) :
    P (rxParse b s) := by
  obtain ⟨p, hp, hrx⟩ | ⟨p, f, hp, -, hrx⟩ := rxParse_cases b s
  · rw [hp] at hparser
    rwa [hrx]
  · rw [hp] at hparser
    rw [hrx]
    exact hdispatch f _ hparser

/-- WDT_TICK holds, counts and has ticks left, or counts to 0 and expires (R465). -/
theorem wdtTick_cases (s : State) :
    wdtTick s = s ∨
    (s.safety.wdtCnt - 1#16 ≠ 0#16 ∧
      wdtTick s = { s with safety := { s.safety with wdtCnt := s.safety.wdtCnt - 1#16 } }) ∨
    (s.safety.wdtExpired = false ∧ wdtTick s = expire { s with safety := { s.safety with wdtCnt := 0#16 } }) := by
  simp only [wdtTick]
  split
  · exact .inl rfl
  · rename_i harmed
    split
    · exact .inl rfl
    · split
      · rename_i hcnt
        rw [hcnt]
        exact .inr (.inr ⟨by simpa using fun h => harmed (.inr h), rfl⟩)
      · exact .inr (.inl ⟨‹_›, rfl⟩)

end Sys2Proof.Machine
end

section
/-! SUPPORT. Every transaction keeps the invariant of the block, register group by register group. -/

namespace Sys2Proof.Machine

/-! ### RESET -/

/-- Half scale lies between the duty margins (R240, R550). -/
theorem synthReset_inv {cfg : Config} (hl : cfg.Legal) : (SynthRegs.reset cfg).Inv cfg := by
  have hres := hl.pwmRes
  have hphase : Within 125000 0 := within_zero (by decide)
  have hpulse : PulseRange cfg (pulsePort ((cfg.pwmRes : Int) / 2)) :=
    pulseRange_of_margins (by simp only [pwmMargin]; omega) (by simp only [pwmMargin]; omega)
  simp only [SynthRegs.Inv, SynthRegs.reset]
  exact ⟨hphase, hphase, hphase, hpulse, hpulse, hpulse⟩

/-- The state that RESET leaves under a legal configuration has the invariant (R550). -/
theorem resetWith_inv {cfg : Config} (hl : cfg.Legal) (ports : Ports) (inputs : List Ports) (n : Nat) :
    (State.resetWith cfg ports inputs [] n).Inv where
  legal := hl
  booted := rfl
  noIssue := rfl
  hall := (by decide : HallRegs.reset.Inv)
  speed := stalled_inv hl
  ranges := ⟨within_zero (by decide), within_zero (by decide), within_zero (by decide), within_zero (by omega),
    inInt32_zero, inInt32_zero, inInt32_zero, within_zero (by decide), filterRange_zero (by decide) _,
    by simp [CtrlRegs.reset, State.resetWith, asr], le_refl 0, (by decide : (0 : Int) ≤ 359),
    Nat.zero_le _⟩
  modes := by simp [CtrlRegs.Modes, State.resetWith, CtrlRegs.reset]
  synth := synthReset_inv hl
  watchdog := fun hne => absurd hl.resets.2.2 hne
  parser := (by decide : Parser.reset.Inv)

theorem doReset_inv {s : State} (h : s.Inv) : (doReset s).Inv := by
  rw [doReset, h.noIssue]
  exact resetWith_inv h.legal _ _ _

/-! ### CTRL_TICK -/

theorem hallStage_inv {s : State} (h : s.Inv) (c : BitVec 3) : (hallStage c s).Inv :=
  { h with hall := hallStageRegs_inv h.hall s.cfg c }

theorem speedStage_inv {s : State} (h : s.Inv) : (speedStage s).Inv :=
  { h with speed := speedStageRegs_inv h.legal h.speed _ _ }

theorem ctrlStage_inv {s : State} (h : s.Inv) : (ctrlStage s).Inv :=
  { h with
    ranges := ctrlStageRegs_ranges h.legal h.ranges s.hall h.speed.speedFilt_within
    modes := ctrlStageRegs_modes h.modes s.cfg s.hall s.speed.speedFilt }

theorem synthStage_inv {s : State} (h : s.Inv) : (synthStage s).Inv :=
  have ⟨hy, hb, hg⟩ := synthPhases_within h.legal h.ranges.pwmOut_within
  { h with synth := synthRegs_inv h.legal hy hb hg }

theorem ctrlTick_inv {s : State} (h : s.Inv) (c : BitVec 3) : (ctrlTick c s).Inv :=
  synthStage_inv (ctrlStage_inv (speedStage_inv (hallStage_inv h c)))

/-! ### RX_BYTE -/

theorem setPower_inv {s : State} (h : s.Inv) (v : Int) : (setPower v s).Inv :=
  { h with ranges := setPowerRegs_ranges h.ranges v, modes := setPowerRegs_modes v s.ctrl }

theorem setSpeed_inv {s : State} (h : s.Inv) (v : Int) : (setSpeed v s).Inv :=
  { h with
    ranges := setSpeedRegs_ranges h.ranges s.hall s.conf.stepThresh v
    modes := setSpeedRegs_modes h.modes s.cfg s.hall s.conf.stepThresh v }

theorem cmdRes_inv {s : State} (h : s.Inv) : (cmdRes s).Inv :=
  have ⟨_, hstill, htr, hval, hinv⟩ := h.hall
  { h with hall := ⟨inInt32_zero, fun hv => ⟨(hstill hv).1, rfl⟩, htr, hval, hinv⟩ }

theorem reload_inv {s : State} (h : s.Inv) : (reload s).Inv :=
  { h with watchdog := fun hne => .inl hne }

/-- A command keeps the invariant when the watchdog has just been reloaded: ENA clears `wdtExpired`, so the counter it
leaves armed must not be 0 (R410, R401, R465). -/
theorem runCommand_inv {s : State} (h : s.Inv) (hreloaded : s.safety.wdtCnt = s.conf.wdtInterval)
    (c : Option CmdName) (pl : List Byte) : (runCommand c pl s).Inv :=
  runCommand_induct h
    (ena := { h with watchdog := fun hne => .inl (hreloaded ▸ hne) })
    (dis := { h with })
    (pow := setPower_inv h)
    (dog := fun _ => { h with watchdog := fun hne => .inl hne })
    (mod := fun _ _ => { h with })
    (res := cmdRes_inv h)
    (spe := setSpeed_inv h)
    (xxx := { setPower_inv h 0 with }) c pl

theorem dispatch_inv {s : State} (h : s.Inv) (f : Frame) : (dispatch f s).Inv :=
  dispatch_induct h (fun c => runCommand_inv (reload_inv h) rfl c f.payload) fun _ hu => { hu with }

theorem rxParse_inv {s : State} (h : s.Inv) (b : Byte) : (rxParse b s).Inv :=
  rxParse_induct { h with parser := parseByte_inv h.parser s.cfg b } fun f _ hu => dispatch_inv hu f

/-! ### WDT_TICK -/

/-- The watchdog tick leaves ticks, or expires the watchdog (R465). -/
theorem wdtTick_inv {s : State} (h : s.Inv) : (wdtTick s).Inv := by
  obtain hs | ⟨hcnt, hs⟩ | ⟨-, hs⟩ := wdtTick_cases s
  · rwa [hs]
  · rw [hs]
    exact { h with watchdog := fun _ => .inl hcnt }
  · rw [hs]
    exact { setPower_inv h 0 with watchdog := fun _ => .inr rfl }

/-! ### One step -/

theorem arrive_inv {s : State} (h : s.Inv) : (arrive s).Inv := by
  obtain hs | ⟨-, p, rest, -, hs⟩ := arrive_cases s
  · rwa [hs]
  · rw [hs]
    exact { h with }

theorem takeNext_inv {s t : State} {p : Ports} (h : s.Inv) (ht : takeNext s = some (p, t)) : t.Inv := by
  rw [(takeNext_frame ht).1]
  exact { h with }

/-- The transaction of a port sample is one of the four (R6). -/
theorem transaction_cases {p : Ports} {i : Instr} (h : p.transaction = .ok i) :
    i = .reset ∨ i = .ctrlTick p.hall p.overcurrent ∨ i = .rxByte p.rxByte p.vbat p.ibus ∨ i = .wdtTick := by
  simp only [Ports.transaction] at h
  split at h <;> cases h <;> simp

/-- Each of the four transactions keeps the invariant; the levels it writes to the ports are not part of it. -/
theorem transaction_inv {s : State} {p : Ports} {i : Instr} (h : s.Inv) (hi : p.transaction = .ok i) :
    (opUpdate i s).Inv := by
  obtain rfl | rfl | rfl | rfl := transaction_cases hi
  · exact doReset_inv h
  · exact ctrlTick_inv (s := { s with ports := { s.ports with overcurrent := p.overcurrent } }) { h with } p.hall
  · exact rxParse_inv (s := { s with ports := { s.ports with vbat := p.vbat, ibus := p.ibus } }) { h with } p.rxByte
  · exact wdtTick_inv h

/-- Settles O6: nothing is issued, so the step takes a strobe, whose transaction keeps the invariant, or only the levels
of a sample arrive. -/
theorem everyStepKeepsTheInvariant : Obligations.EveryStepKeepsTheInvariant := by
  intro s t h hstep
  obtain ⟨p, u, htake, hrun⟩ | ⟨-, hhold⟩ := step_ports h.noIssue
  · rw [hrun] at hstep
    cases hi : p.transaction with
    | error e =>
      rw [runWord_error ((decode_encodePorts u.cfg p).trans hi)] at hstep
      cases hstep
    | ok i =>
      rw [runWord_ok ((decode_encodePorts u.cfg p).trans hi)] at hstep
      obtain rfl := exec_next hstep
      exact transaction_inv (takeNext_inv (arrive_inv h) htake) hi
  · rw [hhold] at hstep
    cases hstep
    exact arrive_inv h

end Sys2Proof.Machine
end

section
/-! SUPPORT. Which registers each transaction may write (10_state.md R42). -/

namespace Sys2Proof.Machine

/-! ### CTRL_TICK -/

/-- A controller that kept the targets, written as an update of itself. -/
theorem CtrlRegs.eq_with_targets {r q : CtrlRegs} (hin : q.pwmInput = r.pwmInput) (hsp : q.setpoint = r.setpoint) :
    q = { q with pwmInput := r.pwmInput, setpoint := r.setpoint } := by
  rw [← hin, ← hsp]

/-- CTRL_TICK writes the decoder, the estimator, the synthesizer, and the controller but for its targets (R42). -/
theorem ctrlTick_frame (c : BitVec 3) (s : State) :
    ctrlTick c s =
      { s with
        hall := (ctrlTick c s).hall, speed := (ctrlTick c s).speed, synth := (ctrlTick c s).synth
        ctrl := { (ctrlTick c s).ctrl with pwmInput := s.ctrl.pwmInput, setpoint := s.ctrl.setpoint } } := by
  have hin : (ctrlTick c s).ctrl.pwmInput = s.ctrl.pwmInput := by simp [ctrlTick]
  have hsp : (ctrlTick c s).ctrl.setpoint = s.ctrl.setpoint := by simp [ctrlTick]
  rw [← CtrlRegs.eq_with_targets hin hsp]
  rfl

/-! ### RX_BYTE -/

/-- SetSpeed leaves the PWM filter alone (R302 to R308). -/
theorem setSpeedRegs_filter (cfg : Config) (hall : HallRegs) (th : Half) (v : Int) (r : CtrlRegs) :
    (setSpeedRegs cfg hall th v r).pwmReg = r.pwmReg ∧ (setSpeedRegs cfg hall th v r).pwmOut = r.pwmOut := by
  simp only [setSpeedRegs]
  split
  · exact ⟨rfl, rfl⟩
  · split
    · exact ⟨rfl, rfl⟩
    · split
      · exact ⟨rfl, rfl⟩
      · split <;> exact ⟨rfl, rfl⟩
      · exact ⟨rfl, rfl⟩

/-- A controller that kept the PWM filter, written as an update of itself. -/
theorem CtrlRegs.eq_with_filter {r q : CtrlRegs} (hreg : q.pwmReg = r.pwmReg) (hout : q.pwmOut = r.pwmOut) :
    q = { q with pwmReg := r.pwmReg, pwmOut := r.pwmOut } := by
  rw [← hreg, ← hout]

/-- `t` differs from `s` only in what the receiver, the dispatcher and the commands may write: of the decoder the
odometer, which they can only clear, and of the controller all but the PWM filter (R42). -/
structure ReceiverWrites (s t : State) : Prop where
  eq : t = { s with
    parser := t.parser, safety := t.safety, conf := t.conf, hall := { s.hall with odo := t.hall.odo }, tx := t.tx
    ctrl := { t.ctrl with pwmReg := s.ctrl.pwmReg, pwmOut := s.ctrl.pwmOut } }
  odo : t.hall.odo = s.hall.odo ∨ t.hall.odo = 0

namespace ReceiverWrites

theorem refl (s : State) : ReceiverWrites s s := ⟨rfl, .inl rfl⟩

theorem trans {s t u : State} (h : ReceiverWrites s t) (k : ReceiverWrites t u) : ReceiverWrites s u where
  eq := k.eq.trans (by rw [h.eq])
  odo := by
    obtain hk | hk := k.odo
    · rw [hk]
      exact h.odo
    · exact .inr hk

/-- An update of the controller that leaves the PWM filter. -/
theorem of_ctrl (s : State) {q : CtrlRegs} (hreg : q.pwmReg = s.ctrl.pwmReg) (hout : q.pwmOut = s.ctrl.pwmOut) :
    ReceiverWrites s { s with ctrl := q } where
  eq := by
    dsimp only
    rw [← CtrlRegs.eq_with_filter hreg hout]
  odo := .inl rfl

end ReceiverWrites

theorem receiverWrites_setPower (v : Int) (s : State) : ReceiverWrites s (setPower v s) := .of_ctrl s rfl rfl

theorem receiverWrites_setSpeed (v : Int) (s : State) : ReceiverWrites s (setSpeed v s) :=
  have ⟨hreg, hout⟩ := setSpeedRegs_filter s.cfg s.hall s.conf.stepThresh v s.ctrl
  .of_ctrl s hreg hout

theorem receiverWrites_runCommand (c : Option CmdName) (pl : List Byte) (s : State) :
    ReceiverWrites s (runCommand c pl s) :=
  runCommand_induct (.refl s)
    (ena := ⟨rfl, .inl rfl⟩)
    (dis := ⟨rfl, .inl rfl⟩)
    (pow := fun v => receiverWrites_setPower v s)
    (dog := fun _ => ⟨rfl, .inl rfl⟩)
    (mod := fun _ _ => ⟨rfl, .inl rfl⟩)
    (res := ⟨rfl, .inr rfl⟩)
    (spe := fun v => receiverWrites_setSpeed v s)
    (xxx := ⟨rfl, .inl rfl⟩) c pl

theorem receiverWrites_dispatch (f : Frame) (s : State) : ReceiverWrites s (dispatch f s) := by
  have hreload : ReceiverWrites s (reload s) := ⟨rfl, .inl rfl⟩
  have hreply (u : State) : ReceiverWrites u (reply f.seq f.cid f.rid u) := ⟨rfl, .inl rfl⟩
  exact dispatch_induct (.refl s) (fun c => hreload.trans (receiverWrites_runCommand c _ _))
    fun u hu => hu.trans (hreply u)

theorem receiverWrites_rxParse (b : Byte) (s : State) : ReceiverWrites s (rxParse b s) :=
  rxParse_induct ⟨rfl, .inl rfl⟩ fun f u hu => hu.trans (receiverWrites_dispatch f u)

/-! ### WDT_TICK -/

/-- WDT_TICK writes its counter, and on expiry its flags and the controller (R42, R465). -/
theorem wdtTick_frame (s : State) :
    wdtTick s =
      { s with safety := { (wdtTick s).safety with estop := s.safety.estop }, ctrl := (wdtTick s).ctrl } ∧
    ((wdtTick s).safety.wdtExpired = s.safety.wdtExpired →
      (wdtTick s).safety.enable = s.safety.enable ∧ (wdtTick s).ctrl = s.ctrl) := by
  obtain hs | ⟨-, hs⟩ | ⟨hexp, hs⟩ := wdtTick_cases s
  · rw [hs]
    exact ⟨rfl, fun _ => ⟨rfl, rfl⟩⟩
  · rw [hs]
    exact ⟨rfl, fun _ => ⟨rfl, rfl⟩⟩
  · rw [hs]
    refine ⟨rfl, fun hflag => ?_⟩
    rw [hexp] at hflag
    cases hflag

/-- Settles O57: one frame per transaction; the levels that CTRL_TICK and RX_BYTE carry are written to the ports
first. -/
theorem writeAccessByTransaction : Obligations.WriteAccessByTransaction := by
  refine ⟨fun c oc s t h => ?_, fun b vbat ibus s t h => ?_, fun s t h => ?_⟩
  · obtain rfl := exec_next h
    exact ctrlTick_frame c { s with ports := { s.ports with overcurrent := oc } }
  · obtain rfl := exec_next h
    obtain ⟨hframe, hodo⟩ :=
      receiverWrites_rxParse b { s with ports := { s.ports with vbat := vbat, ibus := ibus } }
    exact ⟨hframe, hodo⟩
  · obtain rfl := exec_next h
    exact wdtTick_frame s

end Sys2Proof.Machine
end

section
/-! SUPPORT. The output gate and the emergency-stop latch (10_state.md R31, 60_exceptions.md R503 to R506). -/

namespace Sys2Proof.Machine

/-! ### The gate -/

theorem outEn_iff (s : State) :
    outEn s = true ↔ s.safety.enable = true ∧ s.safety.estop = false ∧ s.ports.overcurrent = false := by
  simp [outEn, and_assoc]

theorem outEn_of_estop {s : State} (h : s.safety.estop = true) : outEn s = false := by
  simp [outEn, h]

/-- The next sample arrives where no strobe is left. -/
theorem arrive_of_idle {s : State} {p : Ports} {rest : List Ports} (hidle : idlePorts s.ports = true)
    (hinputs : s.inputs = p :: rest) : arrive s = { s with ports := p, inputs := rest } := by
  simp [arrive, hidle, hinputs]

/-- A sample without a strobe only sets the levels (R143). -/
theorem step_sets_levels {s : State} {p : Ports} {rest : List Ports} (hissue : s.issue = [])
    (hidle : idlePorts s.ports = true) (hinputs : s.inputs = p :: rest) (hlevels : idlePorts p = true) :
    step s = .next { s with ports := p, inputs := rest } := by
  have harrive := arrive_of_idle hidle hinputs
  have hnone : takeNext (arrive s) = none := by
    rw [harrive]
    exact takeNext_of_idle hlevels
  rw [step_takes_nothing hissue hnone, harrive]

/-- The stages of a tick read no port: they commute with a change of the levels. -/
theorem ctrlTick_ports (c : BitVec 3) (q : Ports) (s : State) :
    ctrlTick c { s with ports := q } = { ctrlTick c s with ports := q } := rfl

/-! ### The latch -/

theorem estop_runCommand {s : State} (h : s.safety.estop = true) (c : Option CmdName) (pl : List Byte) :
    (runCommand c pl s).safety.estop = true :=
  runCommand_induct (P := fun u => u.safety.estop = true) h (ena := h) (dis := h) (pow := fun _ => h)
    (dog := fun _ => h) (mod := fun _ _ => h) (res := h) (spe := fun _ => h) (xxx := rfl) c pl

theorem estop_dispatch {s : State} (h : s.safety.estop = true) (f : Frame) : (dispatch f s).safety.estop = true :=
  dispatch_induct (P := fun u => u.safety.estop = true) h (fun c => estop_runCommand (s := reload s) h c _)
    fun _ hu => hu

theorem estop_rxParse {s : State} (h : s.safety.estop = true) (b : Byte) : (rxParse b s).safety.estop = true :=
  rxParse_induct (P := fun u => u.safety.estop = true) h fun f _ hu => estop_dispatch hu f

theorem estop_wdtTick {s : State} (h : s.safety.estop = true) : (wdtTick s).safety.estop = true := by
  rw [(wdtTick_frame s).1]
  exact h

/-- No operation but RESET clears the latch (R505). -/
theorem estop_opUpdate {i : Instr} (hi : i ≠ .reset) {s : State} (h : s.safety.estop = true) :
    (opUpdate i s).safety.estop = true := by
  cases i with
  | reset => exact absurd rfl hi
  | rxByte b v u => exact estop_rxParse (s := { s with ports := { s.ports with vbat := v, ibus := u } }) h b
  | wdtTick => exact estop_wdtTick h
  | rxParse b => exact estop_rxParse h b
  | dispatch f => exact estop_dispatch h f
  | pow pl => exact estop_runCommand h (some .pow) pl
  | dog pl => exact estop_runCommand h (some .dog) pl
  | mod pl => exact estop_runCommand h (some .mod) pl
  | spe pl => exact estop_runCommand h (some .spe) pl
  | xxx => rfl
  | _ => exact h

/-- Settles O58: the gate is read from the flags and the level; CTRL_TICK writes the level and no flag; every operation
but RESET keeps the latch, which closes the gate. -/
theorem outputIsGatedAndEstopHoldsUntilReset : Obligations.OutputIsGatedAndEstopHoldsUntilReset := by
  refine ⟨fun s => ⟨outEn_iff s, (outEn_iff s).mp⟩, fun s p rest hissue hidle hinputs hlevels => ?_,
    fun c oc s hs => ?_, fun i s t hi h hestop => ?_⟩
  · exact ⟨_, step_sets_levels hissue hidle hinputs hlevels, rfl, outEn_iff _⟩
  · have hexec (oc : Bool) : exec (.ctrlTick c oc) s =
        .next { ctrlTick c s with ports := { s.ports with overcurrent := oc } } := by
      rw [exec_of_ne_reset (by simp)]
      exact (runUpdate_of hs _).trans (congrArg Host.Outcome.next (ctrlTick_ports c _ s))
    exact ⟨_, hexec oc, rfl, outEn_iff _, fun oc' => hexec oc'⟩
  · obtain rfl := exec_next h
    have hkept := estop_opUpdate hi hestop
    exact ⟨hkept, outEn_of_estop hkept⟩

end Sys2Proof.Machine
end

section
/-! SUPPORT. A code table that is injective, searched in order: a byte finds the name whose code it is, and no other. -/

namespace Sys2Proof

theorem ite_eq_find?_cons {α : Type} (p : α → Bool) (a : α) (l : List α) :
    (if p a = true then some a else l.find? p) = (a :: l).find? p := by
  by_cases h : p a = true <;> simp [h]

/-- The search for the first name whose code is the byte. -/
def findCode {α : Type} (names : List α) (code : α → Byte) (b : Byte) : Option α :=
  names.find? fun n => b = code n

theorem findCode_eq_some_iff {α : Type} {names : List α} {code : α → Byte} (hcodes : (names.map code).Nodup)
    (hnames : ∀ n, n ∈ names) {b : Byte} {n : α} : findCode names code b = some n ↔ b = code n := by
  have hfound {m : α} (h : findCode names code b = some m) : b = code m := by
    simpa using List.find?_some h
  refine ⟨hfound, fun hb => ?_⟩
  have hsome : (findCode names code b).isSome = true :=
    List.find?_isSome.mpr ⟨n, hnames n, by simpa using hb⟩
  obtain ⟨m, hm⟩ := Option.isSome_iff_exists.mp hsome
  have hcode : code m = code n := (hfound hm).symm.trans hb
  rw [hm, List.inj_on_of_nodup_map hcodes (hnames m) (hnames n) hcode]

end Sys2Proof
end

section
/-! SUPPORT. The codes of the id profiles as functions of the names, inverse to `lookup` where they are injective
(30_encoding.md R130, R131), and the operation that a name and its operands stand for (R142). -/

namespace Sys2Proof

open Sys2Proof.Machine

/-! ### The cmdId byte -/

/-- The CMD_CODE entry of a command (R130). `CmdCode.lookup_eq_some_iff` ties it to `lookup`. -/
def CmdCode.code (c : CmdCode) : CmdName → Byte
  | .ena => c.ena
  | .dis => c.dis
  | .pow => c.pow
  | .dog => c.dog
  | .mod => c.mod
  | .res => c.res
  | .spe => c.spe
  | .xxx => c.xxx

/-- The commands in R130's order. -/
def Machine.CmdName.all : List CmdName := [.ena, .dis, .pow, .dog, .mod, .res, .spe, .xxx]

theorem CmdCode.lookup_eq_findCode (c : CmdCode) (b : Byte) : c.lookup b = findCode CmdName.all c.code b := by
  simp only [findCode, CmdName.all, ← ite_eq_find?_cons, List.find?_nil, decide_eq_true_eq]
  rfl

/-- In an injective CMD_CODE a byte selects the command whose entry it is, and no other (R130). -/
theorem CmdCode.lookup_eq_some_iff {c : CmdCode} (h : c.codes.Nodup) {b : Byte} {n : CmdName} :
    c.lookup b = some n ↔ b = c.code n := by
  rw [CmdCode.lookup_eq_findCode]
  exact findCode_eq_some_iff (names := CmdName.all) (code := c.code) h fun n => by cases n <;> decide

/-- A command's own code and a payload that it accepts select it (R132). -/
theorem CmdCode.select_code {c : CmdCode} (h : c.codes.Nodup) {n : CmdName} {pl : List Byte}
    (hpl : n.accepts pl = true) : c.select (c.code n) pl = some n := by
  simp [CmdCode.select, (CmdCode.lookup_eq_some_iff h).mpr rfl, hpl]

/-- The operation of a command with its payload (R142). `decodeCommand_eq` ties it to the decoder. -/
def Machine.CmdName.toInstr : CmdName → List Byte → Instr
  | .ena => .ena
  | .dis => .dis
  | .pow => .pow
  | .dog => .dog
  | .mod => .mod
  | .res => .res
  | .spe => .spe
  | .xxx => .xxx

/-- A cmdId and a payload stand for the command they select, or for an unknown one (R138, R142). -/
theorem decodeCommand_eq (c : CmdCode) (cid : Byte) (pl : List Byte) :
    decodeCommand c cid pl = ((c.select cid pl).map fun n => n.toInstr pl).getD (.unknownCmd cid pl) := by
  unfold decodeCommand
  cases c.select cid pl with
  | none => rfl
  | some n => cases n <;> rfl

/-! ### The rspId byte -/

/-- The RSP_CODE entry of NOR or of a response (R131). `RspCode.lookup_eq_some_iff` ties it to `lookup`. -/
def RspCode.code (c : RspCode) : RspName → Byte
  | .nor => c.nor
  | .speed => c.speed
  | .position => c.position
  | .battery => c.battery
  | .current => c.current
  | .pwm => c.pwm
  | .watchdog => c.watchdog
  | .pidf => c.pidf
  | .telemetry => c.telemetry

/-- NOR and the responses in R131's order. -/
def Machine.RspName.all : List RspName :=
  [.nor, .speed, .position, .battery, .current, .pwm, .watchdog, .pidf, .telemetry]

theorem RspCode.lookup_eq_findCode (c : RspCode) (b : Byte) : c.lookup b = findCode RspName.all c.code b := by
  simp only [findCode, RspName.all, ← ite_eq_find?_cons, List.find?_nil, decide_eq_true_eq]
  rfl

/-- In an injective RSP_CODE a byte selects the response whose entry it is, and no other (R131). -/
theorem RspCode.lookup_eq_some_iff {c : RspCode} (h : c.codes.Nodup) {b : Byte} {n : RspName} :
    c.lookup b = some n ↔ b = c.code n := by
  rw [RspCode.lookup_eq_findCode]
  exact findCode_eq_some_iff (names := RspName.all) (code := c.code) h fun n => by cases n <;> decide

/-- The operation of a response with the seq and cmdId it copies (R142). `decodeResponse_eq` ties it to the decoder. -/
def Machine.RspName.toInstr : RspName → BitVec 4 → Byte → Instr
  | .nor => .rspNor
  | .speed => .rspSpeed
  | .position => .rspPosition
  | .battery => .rspBattery
  | .current => .rspCurrent
  | .pwm => .rspPwm
  | .watchdog => .rspWatchdog
  | .pidf => .rspPidf
  | .telemetry => .rspTelemetry

/-- A rspId stands for the response that it selects, or for an unknown one (R142). -/
theorem decodeResponse_eq (c : RspCode) (rid : Byte) (seq : BitVec 4) (cid : Byte) :
    decodeResponse c rid seq cid = ((c.lookup rid).map fun n => n.toInstr seq cid).getD (.rspUnknown seq cid rid) := by
  unfold decodeResponse
  cases c.lookup rid with
  | none => rfl
  | some n => cases n <;> rfl

end Sys2Proof
end

section
/-! SUPPORT. The wire format of a frame read back (30_encoding.md R120 to R123). -/

namespace Sys2Proof.Machine

/-- The bytes of a frame, in the order of R120. -/
theorem encodeFrame_eq (f : Frame) :
    encodeFrame f = som :: BitVec.ofNat 8 f.payload.length :: (f.seq ++ f.dest) :: f.cid :: f.rid ::
      (f.payload ++ (bytes16 (crc16 (frameHead f)) ++ [eom])) := by
  simp [encodeFrame, frameHead]

/-- The length byte of a frame that fits the wire format holds the payload's length (R121). -/
theorem lengthByte_toNat {f : Frame} (h : f.payload.length ≤ maxPayload) :
    (BitVec.ofNat 8 f.payload.length).toNat = f.payload.length := by
  simp only [maxPayload] at h
  rw [BitVec.toNat_ofNat]
  omega

/-- Byte 2 holds seq in its high and dest in its low half (R120). -/
theorem frameFields_append (f : Frame) : frameFields (f.seq ++ f.dest) f.cid f.rid f.payload = f := by
  have hseq : (f.seq ++ f.dest).extractLsb' 4 4 = f.seq := BitVec.extractLsb'_append_eq_left
  have hdest : (f.seq ++ f.dest).extractLsb' 0 4 = f.dest := BitVec.extractLsb'_append_eq_right
  rw [frameFields, hseq, hdest]

/-- A frame that fits the wire format is read back from its bytes (R120, R123). -/
theorem decodeFrame_encodeFrame {f : Frame} (h : f.wf = true) : decodeFrame (encodeFrame f) = some f := by
  have hlen : f.payload.length ≤ maxPayload := of_decide_eq_true h
  have hhead : [som, BitVec.ofNat 8 f.payload.length, f.seq ++ f.dest, f.cid, f.rid] ++ f.payload = frameHead f := rfl
  simp only [encodeFrame_eq, decodeFrame, lengthByte_toNat hlen, List.take_left, List.drop_left, hhead, hlen, and_self,
    if_true, frameFields_append]

/-- A byte sequence that is the wire form of a frame carries it (R120). -/
theorem decodeFrame_of_eq {bytes : List Byte} {f : Frame} (h : f.wf = true) (he : bytes = encodeFrame f) :
    decodeFrame bytes = some f :=
  he ▸ decodeFrame_encodeFrame h

end Sys2Proof.Machine
end

section
/-! SUPPORT. The operand bytes of a word read back, one lemma per operand form (log 4). -/

namespace Sys2Proof

theorem extractLsb'_setWidth {w v : Nat} (h : w ≤ v) (x : BitVec w) : (x.setWidth v).extractLsb' 0 w = x := by
  apply BitVec.eq_of_getLsbD_eq
  intro i hi
  simp [hi, hi.trans_le h]

theorem operand3_setWidth (c : BitVec 3) (k : BitVec 3 → Instr) : operand3 (c.setWidth 8) k = .ok (k c) := by
  have hlt : (c.setWidth 8).toNat < 8 := by
    rw [BitVec.toNat_setWidth_of_le (by decide)]
    exact c.isLt
  rw [operand3, if_pos hlt, extractLsb'_setWidth (by decide)]

theorem operand4_setWidth (q : BitVec 4) (k : BitVec 4 → Instr) : operand4 (q.setWidth 8) k = .ok (k q) := by
  have hlt : (q.setWidth 8).toNat < 16 := by
    rw [BitVec.toNat_setWidth_of_le (by decide)]
    exact q.isLt
  rw [operand4, if_pos hlt, extractLsb'_setWidth (by decide)]

theorem operandSector_ofNat (s : Fin 6) (k : Fin 6 → Instr) :
    operandSector (BitVec.ofNat 8 s.val) k = .ok (k s) := by
  have hval : (BitVec.ofNat 8 s.val).toNat = s.val := by
    rw [BitVec.toNat_ofNat]
    omega
  simp [operandSector, hval]

theorem operandLength_ofNat (l : Fin 10) (k : Fin 10 → Instr) :
    operandLength (BitVec.ofNat 8 l.val) k = .ok (k l) := by
  have hval : (BitVec.ofNat 8 l.val).toNat = l.val := by
    rw [BitVec.toNat_ofNat]
    omega
  simp [operandLength, hval]

end Sys2Proof
end

section
/-! SUPPORT. The word of an operation decodes to the operation, format by format (log 4; a transaction's word is
`decode_encodePorts`). -/

namespace Sys2Proof

open Sys2Proof.Machine

/-- A sub-operation's word is read by its row number. -/
theorem decode_encodeSub (cfg : Config) (op : Byte) (operands : List Byte) :
    decode cfg (encodeSub op operands) = decodeSub op.toNat operands := rfl

/-- DISPATCH's operand is the wire form of its frame (R120). -/
theorem decodeSub_encodeFrame {f : Frame} (h : f.wf = true) : decodeSub 21 (encodeFrame f) = .ok (.dispatch f) := by
  simp only [decodeSub, decodeFrame_encodeFrame h]

theorem decode_encodeCommand (cfg : Config) (cid : Byte) {pl : List Byte} (h : payloadOk pl = true) :
    decode cfg (encodeCommand cid pl) = .ok (decodeCommand cfg.cmdCode cid pl) :=
  if_pos h

theorem decode_encodeResponse (cfg : Config) (rid : Byte) (seq : BitVec 4) (cid : Byte) :
    decode cfg (encodeResponse rid seq cid) = .ok (decodeResponse cfg.rspCode rid seq cid) :=
  operand4_setWidth seq fun q => decodeResponse cfg.rspCode rid q cid

/-- The word of a known command with a payload it accepts (R130, R132). -/
theorem decode_command {cfg : Config} (hl : cfg.Legal) (n : CmdName) {pl : List Byte}
    (h : (payloadOk pl && n.accepts pl) = true) :
    decode cfg (encodeCommand (cfg.cmdCode.code n) pl) = .ok (n.toInstr pl) := by
  obtain ⟨hlen, hpl⟩ := Bool.and_eq_true_iff.mp h
  rw [decode_encodeCommand cfg _ hlen, decodeCommand_eq, CmdCode.select_code hl.cmdNodup hpl]
  rfl

/-- The word of an unknown or malformed command (R138). -/
theorem decode_unknownCmd (cfg : Config) {cid : Byte} {pl : List Byte} (h : payloadOk pl = true)
    (hnone : cfg.cmdCode.select cid pl = none) : decode cfg (encodeCommand cid pl) = .ok (.unknownCmd cid pl) := by
  rw [decode_encodeCommand cfg _ h, decodeCommand_eq, hnone]
  rfl

/-- The word of NOR or of a known response (R131). -/
theorem decode_response {cfg : Config} (hl : cfg.Legal) (n : RspName) (seq : BitVec 4) (cid : Byte) :
    decode cfg (encodeResponse (cfg.rspCode.code n) seq cid) = .ok (n.toInstr seq cid) := by
  rw [decode_encodeResponse, decodeResponse_eq, (RspCode.lookup_eq_some_iff hl.rspNodup).mpr rfl]
  rfl

/-- The word of an unknown response (R429). -/
theorem decode_rspUnknown (cfg : Config) (seq : BitVec 4) (cid : Byte) {rid : Byte}
    (hnone : cfg.rspCode.lookup rid = none) :
    decode cfg (encodeResponse rid seq cid) = .ok (.rspUnknown seq cid rid) := by
  rw [decode_encodeResponse, decodeResponse_eq, hnone]
  rfl

/-- Settles O5: each operation's word is read by its format, and each operand form reads back. -/
theorem decodeOfEncodeIsTheOperation : Obligations.DecodeOfEncodeIsTheOperation := by
  intro cfg i hl hwf
  cases i with
  | reset | ctrlTick | rxByte | wdtTick => exact decode_encodePorts cfg _
  | speedStage | ctrlStage | stepperStep | pidfEval | synthStage | expire | rxParse | crc16 => rfl
  | hallStage c | hallDecode c => exact operand3_setWidth c _
  | speedUpdate raw => exact congrArg (fun w => Except.ok (Instr.speedUpdate w)) (word_bytes raw)
  | pulseClamp x => exact congrArg (fun w => Except.ok (Instr.pulseClamp w)) (word_bytes x)
  | pwmFilter x => exact congrArg (fun v => Except.ok (Instr.pwmFilter v)) (half_bytes x)
  | setPower v => exact congrArg (fun v => Except.ok (Instr.setPower v)) (half_bytes v)
  | setSpeed v => exact congrArg (fun v => Except.ok (Instr.setSpeed v)) (half_bytes v)
  | blockCommutate pwm s =>
    exact (operandSector_ofNat s _).trans (congrArg (fun v => Except.ok (Instr.blockCommutate v s)) (half_bytes pwm))
  | sineCommutate m a =>
    exact congrArg₂ (fun v w => Except.ok (Instr.sineCommutate v w)) (half_bytes m) (half_bytes a)
  | frameCheck len => exact operandLength_ofNat len _
  | dispatch f => exact (decode_encodeSub cfg 21#8 _).trans (decodeSub_encodeFrame hwf)
  | reply seq cid rid => exact operand4_setWidth seq fun q => .reply q cid rid
  | ena pl => exact decode_command hl .ena ((Bool.and_true _).trans hwf)
  | dis pl => exact decode_command hl .dis ((Bool.and_true _).trans hwf)
  | pow pl => exact decode_command hl .pow hwf
  | dog pl => exact decode_command hl .dog hwf
  | mod pl => exact decode_command hl .mod hwf
  | res pl => exact decode_command hl .res ((Bool.and_true _).trans hwf)
  | spe pl => exact decode_command hl .spe hwf
  | xxx pl => exact decode_command hl .xxx ((Bool.and_true _).trans hwf)
  | unknownCmd cid pl =>
    obtain ⟨hpl, hnone⟩ := Bool.and_eq_true_iff.mp hwf
    exact decode_unknownCmd cfg hpl (Option.isNone_iff_eq_none.mp hnone)
  | rspNor seq cid => exact decode_response hl .nor seq cid
  | rspSpeed seq cid => exact decode_response hl .speed seq cid
  | rspPosition seq cid => exact decode_response hl .position seq cid
  | rspBattery seq cid => exact decode_response hl .battery seq cid
  | rspCurrent seq cid => exact decode_response hl .current seq cid
  | rspPwm seq cid => exact decode_response hl .pwm seq cid
  | rspWatchdog seq cid => exact decode_response hl .watchdog seq cid
  | rspPidf seq cid => exact decode_response hl .pidf seq cid
  | rspTelemetry seq cid => exact decode_response hl .telemetry seq cid
  | rspUnknown seq cid rid => exact decode_rspUnknown cfg seq cid (Option.isNone_iff_eq_none.mp hwf)

/-- Settles O4: the two good frames are the wire form of their fields, the third has a wrong CRC, and the ids are looked
up in the default profiles. -/
theorem specWordsDecode : Obligations.SpecWordsDecode := by
  refine ⟨decodeFrame_of_eq rfl (by decide +kernel), decodeFrame_of_eq rfl (by decide +kernel), by decide +kernel,
    rfl, rfl, rfl, rfl, rfl⟩

end Sys2Proof
end

section
/-! SUPPORT. What a legal HALL_TABLE holds (30_encoding.md R101): NOFUNC at codes 000 and 111, and six different sectors
between them. -/

namespace Sys2Proof

/-- The entries of a legal HALL_TABLE between its two NOFUNC codes are six different sectors (R101, R201). -/
theorem Config.Legal.hallTable {c : Config} (h : c.Legal) :
    ∃ sectors : List Nat, c.tables.hall = noFunc :: (sectors ++ [noFunc]) ∧ sectors.length = 6 ∧
      (∀ v ∈ sectors, v < 6) ∧ sectors.Nodup := by
  obtain ⟨hok, _⟩ := (Config.check_iff c).mp h.1
  unfold Config.hallTableOk at hok
  split at hok
  next x0 x1 x2 x3 x4 x5 x6 x7 htable =>
    simp only [Bool.and_eq_true, beq_iff_eq, List.all_eq_true, decide_eq_true_eq] at hok
    obtain ⟨⟨⟨rfl, rfl⟩, hlt⟩, hnodup⟩ := hok
    exact ⟨_, htable, rfl, hlt, hnodup⟩
  next => cases hok

namespace Machine

/-! ### The entries of the eight codes -/

/-- The two invalid codes read NOFUNC (R201). -/
theorem hallDecode_invalid {cfg : Config} (h : cfg.Legal) {c : BitVec 3} (hc : c = 0b000#3 ∨ c = 0b111#3) :
    hallDecode cfg c = noFunc := by
  obtain ⟨sectors, htable, hlen, -, -⟩ := h.hallTable
  obtain rfl | rfl := hc
  · simp [hallDecode, htable]
  · simp [hallDecode, htable, hlen]

/-- The entry of a valid code is the one at its place among the six sectors (R200). -/
theorem hallDecode_valid {cfg : Config} {sectors : List Nat} (htable : cfg.tables.hall = noFunc :: (sectors ++ [noFunc]))
    (hlen : sectors.length = 6) {c : BitVec 3} (h0 : c ≠ 0b000#3) (h7 : c ≠ 0b111#3) :
    ∃ (i : Nat) (hi : i < sectors.length), c.toNat = i + 1 ∧ hallDecode cfg c = sectors[i] := by
  obtain ⟨i, hcode⟩ : ∃ i, c.toNat = i + 1 := Nat.exists_eq_succ_of_ne_zero (by bv_omega)
  have hi : i < sectors.length := by bv_omega
  refine ⟨i, hi, hcode, ?_⟩
  rw [hallDecode, htable, hcode, List.getD_cons_succ, List.getD_append _ _ _ _ hi, List.getD_eq_getElem _ _ hi]

/-- A valid code reads a sector (R201). -/
theorem hallDecode_lt {cfg : Config} (h : cfg.Legal) {c : BitVec 3} (h0 : c ≠ 0b000#3) (h7 : c ≠ 0b111#3) :
    hallDecode cfg c < 6 := by
  obtain ⟨sectors, htable, hlen, hlt, -⟩ := h.hallTable
  obtain ⟨i, hi, -, hdecode⟩ := hallDecode_valid htable hlen h0 h7
  rw [hdecode]
  exact hlt _ (List.getElem_mem hi)

/-- A code that reads a sector is a valid one (R201). -/
theorem valid_of_hallDecode_lt {cfg : Config} (h : cfg.Legal) {c : BitVec 3} (hlt : hallDecode cfg c < 6) :
    c ≠ 0b000#3 ∧ c ≠ 0b111#3 := by
  rw [← not_or]
  intro hc
  rw [hallDecode_invalid h hc] at hlt
  exact absurd hlt (by decide)

/-- Only one code reads each sector (R201). -/
theorem hallDecode_injective {cfg : Config} (h : cfg.Legal) {c c' : BitVec 3} (hlt : hallDecode cfg c < 6)
    (heq : hallDecode cfg c' = hallDecode cfg c) : c' = c := by
  obtain ⟨sectors, htable, hlen, -, hnodup⟩ := h.hallTable
  obtain ⟨h0, h7⟩ := valid_of_hallDecode_lt h hlt
  obtain ⟨h0', h7'⟩ := valid_of_hallDecode_lt h (heq ▸ hlt)
  obtain ⟨i, hi, hcode, hdecode⟩ := hallDecode_valid htable hlen h0 h7
  obtain ⟨j, hj, hcode', hdecode'⟩ := hallDecode_valid htable hlen h0' h7'
  have hplace : j = i := hnodup.getElem_inj_iff.mp (hdecode'.symm.trans (heq.trans hdecode))
  exact BitVec.eq_of_toNat_eq (by omega)

/-! ### The operation -/

/-- In an admitted state every operation but RESET answers its update (R500). -/
theorem exec_of_admitted {i : Instr} (hi : i ≠ .reset) {s : State} (h : s.Admitted) :
    exec i s = .next (opUpdate i s) := (exec_of_ne_reset hi s).trans (runUpdate_of h _)

/-- Settles O25: the operation writes the entry to `result` only, and the entries are those of a legal table. -/
theorem hallDecodeReadsTheTable : Obligations.HallDecodeReadsTheTable := by
  intro c s h
  exact ⟨exec_of_admitted (i := .hallDecode c) nofun h, hallDecode_invalid h.1, hallDecode_lt h.1,
    fun _ => hallDecode_injective h.1⟩

end Machine
end Sys2Proof
end

section
/-! SUPPORT. HALL_STAGE's three cases (40_hall_decoder.md R208), one equation each, and the difference of two sectors. -/

namespace Sys2Proof.Machine

theorem sectorOf_eq_none {v : Nat} (h : 6 ≤ v) : sectorOf v = none := dif_neg (by omega)

@[simp] theorem sectorOf_val (k : Fin 6) : sectorOf k.val = some k := dif_pos k.isLt

/-- NOFUNC holds the sector (R202). -/
theorem hallStageRegs_hold {cfg : Config} {c : BitVec 3} {h : HallRegs} (hv : 6 ≤ hallDecode cfg c) :
    hallStageRegs cfg c h = { h with transition := false, validTr := false, hallInvalid := true } := by
  rw [hallStageRegs, sectorOf_eq_none hv]

/-- The first valid code sets the sector (R203). -/
theorem hallStageRegs_first {cfg : Config} {c : BitVec 3} {h : HallRegs} {k : Fin 6} (hv : hallDecode cfg c = k.val)
    (hfirst : h.sectorValid = false) :
    hallStageRegs cfg c h =
      { h with sector := k, sectorValid := true, transition := false, validTr := false, hallInvalid := false } := by
  simp [hallStageRegs, hv, hfirst]

/-- A later valid code moves the sector by `k - h.sector` in `Fin 6`, that is mod 6 (R204 to R207). -/
theorem hallStageRegs_move {cfg : Config} {c : BitVec 3} {h : HallRegs} {k : Fin 6} (hv : hallDecode cfg c = k.val)
    (hlater : h.sectorValid = true) :
    hallStageRegs cfg c h =
      { sector := k
        sectorValid := true
        hallDir := if k - h.sector = 1 then .forward else if k - h.sector = 5 then .reverse else h.hallDir
        odo := if k - h.sector = 1 then wrap32 (h.odo + 1)
               else if k - h.sector = 5 then wrap32 (h.odo - 1) else h.odo
        transition := decide (k - h.sector ≠ 0)
        validTr := decide (k - h.sector = 1 ∨ k - h.sector = 5)
        hallInvalid := false } := by
  simp [hallStageRegs, hv, hlater, bne, beq_eq_decide]

/-- R204's difference, written on sector numbers. -/
theorem val_sub_sector (k s : Fin 6) : (k - s).val = (k.val + 6 - s.val) % 6 := by
  rw [Fin.val_sub]
  congr 1
  omega

/-- Settles O26: one case of the stage per clause; the third reads the difference and the wrapped odometer as numbers. -/
theorem hallStageFollowsItsPseudocode : Obligations.HallStageFollowsItsPseudocode := by
  intro c s h v
  have hexec : exec (.hallStage c) s = .next { s with hall := hallStageRegs s.cfg c s.hall } :=
    exec_of_admitted (i := .hallStage c) nofun h
  refine ⟨fun hv => ?_, fun k hv hfirst => ?_, fun k hv hlater => ?_⟩
  · rw [hexec, hallStageRegs_hold hv]
  · rw [hexec, hallStageRegs_first hv hfirst]
  · rw [hexec, hallStageRegs_move hv hlater]
    simp [Fin.ext_iff, val_sub_sector, wrap32_eq_emod]

end Sys2Proof.Machine
end

section
/-! SUPPORT. The rules of commutation (41_commutation.md): BLOCK_COMMUTATE's three phases (R230, R231), SINE_COMMUTATE's
angles and table values (R232 to R235), PULSE_CLAMP (R240). -/

namespace Sys2Proof

/-- The signs of a BLOCK_TABLE row are 0, +1 and -1 in some order (R105). -/
theorem Signs.perm_of_legal {r : Signs} (h : r.legal = true) : [r.y, r.b, r.g].Perm [0, 1, -1] := by
  simp only [Signs.legal, List.contains_iff_mem, List.mem_cons, List.not_mem_nil, or_false] at h
  rcases h with rfl | rfl | rfl | rfl | rfl | rfl <;> decide

namespace Machine

/-! ### The six-step table -/

/-- A legal row drives the phases 0, +pwm and -pwm in some order (R231). -/
theorem blockCommutate_perm {cfg : Config} {k : Fin 6} (h : (blockRow cfg k).legal = true) (pwm : Int) :
    [(blockCommutate cfg pwm k).y, (blockCommutate cfg pwm k).b, (blockCommutate cfg pwm k).g].Perm [0, pwm, -pwm] := by
  simpa [blockCommutate] using (Signs.perm_of_legal h).map (· * pwm)

/-- Settles O27: the row of a legal table, and the permutation of its signs scaled by the PWM value. -/
theorem blockCommutationDrivesTwoPhases : Obligations.BlockCommutationDrivesTwoPhases := by
  intro pwm k s h
  obtain ⟨hrow, hlegal⟩ := h.1.blockRow k
  exact ⟨blockRow s.cfg k, hrow, exec_of_admitted (i := .blockCommutate pwm k) nofun h,
    blockCommutate_perm hlegal pwm.toInt⟩

/-! ### The sine table -/

/-- An angle is read mod 360 (R235), so its own reduction does not matter. -/
theorem sinePhase_emod_add (cfg : Config) (m a d : Int) : sinePhase cfg m (a % 360 + d) = sinePhase cfg m (a + d) := by
  simp only [sinePhase, sineLut, Int.emod_add_emod]

/-- Y, B and G stand 120 degrees apart (R232, R233). -/
theorem sineCommutate_eq (cfg : Config) (m a : Int) :
    sineCommutate cfg m a = ⟨sinePhase cfg m a, sinePhase cfg m (a + 120), sinePhase cfg m (a + 240)⟩ := by
  have hy := sinePhase_emod_add cfg m a 0
  simp only [add_zero] at hy
  simp only [sineCommutate, hy, sinePhase_emod_add]

/-- One phase under a legal configuration: the entry of SINE_LUT times m >> 3, divided rounding toward zero (R232). -/
theorem sinePhase_eq {cfg : Config} (h : cfg.Legal) (m a : Int) :
    sinePhase cfg m a = (cfg.sineLut.getD (a % 360).toNat 0 * (m / 8)).tdiv cfg.sineNorm := by
  have hnorm := h.sineNorm_pos
  rw [sinePhase, (h.sine a 0).1, tdiv_of_ne_zero (by omega)]
  rfl

/-- Settles O28: the three phases, each under a legal configuration. -/
theorem sineCommutationFollowsItsPseudocode : Obligations.SineCommutationFollowsItsPseudocode := by
  intro m a s h phase
  rw [exec_of_admitted (i := .sineCommutate m a) nofun h]
  simp only [opUpdate, sineCommutate_eq, Phases.toResult, sinePhase_eq h.1, phase]

/-! ### The pulse clamp -/

/-- The lower duty margin is below the upper one (PB6). -/
theorem margins_le {cfg : Config} (h : cfg.Legal) : pwmMargin ≤ cfg.pwmRes - pwmMargin := by
  have hres := h.pwmRes
  simp only [pwmMargin]
  omega

/-- PULSE_CLAMP as the lattice operations write it (R240, R241). -/
theorem pulseClamp_eq {cfg : Config} (h : cfg.Legal) (x : Int) :
    pulseClamp cfg x = max 10 (min (x + (cfg.pwmRes : Int) / 2) (cfg.pwmRes - 10)) :=
  clamp_eq_max_min (margins_le h) _

/-- The clamp leaves the duty margins (R240). -/
theorem pulseClamp_margins {cfg : Config} (h : cfg.Legal) (x : Int) :
    10 ≤ pulseClamp cfg x ∧ pulseClamp cfg x ≤ cfg.pwmRes - 10 :=
  clamp_within (margins_le h) _

/-- Settles O31: PULSE_CLAMP is the clamp between the two margins, which a legal PWM_RES keeps apart (PB6). -/
theorem pulseClampLeavesTheDutyMargin : Obligations.PulseClampLeavesTheDutyMargin := by
  intro x s h p
  have hp : pulseClamp s.cfg x.toInt = p := pulseClamp_eq h.1 _
  rw [← hp]
  exact ⟨exec_of_admitted (i := .pulseClamp x) nofun h, pulseClamp_margins h.1 _⟩

end Machine
end Sys2Proof
end

section
/-! SUPPORT. Sine drive against block drive at the sector angles (41_commutation.md R236). With the default tables the
sine at a sector's angle is 866 times the sector's BLOCK_TABLE sign on every phase, so SINE_COMMUTATE there is
BLOCK_COMMUTATE of the attenuated amplitude. -/

namespace Sys2Proof.Machine

/-! ### The default tables -/

/-- The default BLOCK_TABLE has the row that BLOCK_COMMUTATE reads, and it is legal (R105). -/
theorem blockRow_default {cfg : Config} (hblock : cfg.tables.block = Tables.blockDefault) (k : Fin 6) :
    Tables.blockDefault[k.val]? = some (blockRow cfg k) ∧ (blockRow cfg k).legal = true := by
  have hk : k.val < Tables.blockDefault.length := k.isLt
  have hlegal : ∀ r ∈ Tables.blockDefault, r.legal = true := by decide
  rw [blockRow, hblock, List.getD_eq_getElem _ _ hk]
  exact ⟨List.getElem?_eq_getElem hk, hlegal _ (List.getElem_mem hk)⟩

/-- The default sine at a sector's angle and 120 and 240 degrees on: 866 times the sector's signs (R105, R107, R108). -/
theorem sineLut_sectorAngle {cfg : Config} (hsine : cfg.sineLut = Tables.sineDefault)
    (hblock : cfg.tables.block = Tables.blockDefault) (hadv : cfg.phaseAdv = 0) (k : Fin 6) :
    sineLut cfg (sectorAngle cfg k) = (blockRow cfg k).y * 866 ∧
      sineLut cfg (sectorAngle cfg k + 120) = (blockRow cfg k).b * 866 ∧
      sineLut cfg (sectorAngle cfg k + 240) = (blockRow cfg k).g * 866 := by
  simp only [sectorAngle, hadv, sineLut, hsine, blockRow, hblock]
  fin_cases k <;> exact ⟨rfl, rfl, rfl⟩

/-! ### One waveform in both drives -/

/-- The amplitude of every driven phase at a sector's angle: the attenuated 866, divided by SINE_NORM (R232). -/
def sectorAmplitude (cfg : Config) (m : Int) : Int := (866 * (m / 8)).tdiv cfg.sineNorm

theorem sectorAmplitude_pos {cfg : Config} {m : Int} (hnorm : 1 ≤ cfg.sineNorm) (h : cfg.sineNorm ≤ 866 * (m / 8)) :
    0 < sectorAmplitude cfg m := by
  rw [sectorAmplitude, Int.tdiv_eq_ediv_of_nonneg (by omega)]
  exact Int.lt_of_lt_of_le Int.one_pos (Int.le_ediv_of_mul_le (by omega) (by omega))

theorem sectorAmplitude_eq_zero {cfg : Config} {m : Int} (hm : 8 ≤ m) (h : 866 * (m / 8) < cfg.sineNorm) :
    sectorAmplitude cfg m = 0 :=
  Int.tdiv_eq_zero_of_lt (by omega) h

/-- The values that a sign in a table can have (R105). -/
theorem Within.sign_cases {r : Int} (hr : Within 1 r) : r = -1 ∨ r = 0 ∨ r = 1 := by
  obtain ⟨h1, h2⟩ := hr
  omega

/-- Division rounding toward zero commutes with a sign (R13). -/
theorem sign_mul_tdiv {r : Int} (hr : Within 1 r) (a b : Int) : (r * a).tdiv b = r * a.tdiv b := by
  obtain rfl | rfl | rfl := hr.sign_cases
  · simp [Int.neg_tdiv]
  · simp
  · simp

/-- A phase driven with a positive value has its sign from the table (R230). -/
theorem sign_mul_of_pos {r x : Int} (hr : Within 1 r) (hx : 0 < x) : (r * x).sign = r := by
  rw [Int.sign_mul, Int.sign_eq_one_of_pos hx, mul_one]
  obtain rfl | rfl | rfl := hr.sign_cases
  · rfl
  · rfl
  · rfl

/-- A phase whose table value is a sign times 866 has that sign times the sector amplitude. -/
theorem sinePhase_of_sign {cfg : Config} (hnorm : 1 ≤ cfg.sineNorm) {a r : Int} (hr : Within 1 r)
    (ha : sineLut cfg a = r * 866) (m : Int) : sinePhase cfg m a = r * sectorAmplitude cfg m := by
  rw [sinePhase, ha, tdiv_of_ne_zero (by omega), mul_assoc, sign_mul_tdiv hr]
  rfl

/-- SINE_COMMUTATE at a sector's angle is BLOCK_COMMUTATE of the sector amplitude. -/
theorem sineCommutate_sectorAngle {cfg : Config} (hsine : cfg.sineLut = Tables.sineDefault)
    (hblock : cfg.tables.block = Tables.blockDefault) (hadv : cfg.phaseAdv = 0) (hnorm : 1 ≤ cfg.sineNorm) (m : Int)
    (k : Fin 6) : sineCommutate cfg m (sectorAngle cfg k) = blockCommutate cfg (sectorAmplitude cfg m) k := by
  obtain ⟨hy, hb, hg⟩ := sineLut_sectorAngle hsine hblock hadv k
  obtain ⟨wy, wb, wg⟩ := Signs.within_of_legal (blockRow_default hblock k).2
  rw [sineCommutate_eq, sinePhase_of_sign hnorm wy hy, sinePhase_of_sign hnorm wb hb, sinePhase_of_sign hnorm wg hg]
  rfl

/-- Settles O29: the phases are the row times the sector amplitude, which is positive from SINE_NORM on and 0 below. -/
theorem sineSignsMatchTheBlockRow : Obligations.SineSignsMatchTheBlockRow := by
  intro cfg m k hsine hblock hadv hnorm hm p
  have hp : p = blockCommutate cfg (sectorAmplitude cfg m) k := sineCommutate_sectorAngle hsine hblock hadv hnorm m k
  obtain ⟨hrow, hlegal⟩ := blockRow_default hblock k
  obtain ⟨hy, hb, hg⟩ := Signs.within_of_legal hlegal
  rw [hp]
  refine ⟨fun hreach => ?_, fun hbelow => ?_, _, blockCommutate_perm hlegal _⟩
  · have hpos := sectorAmplitude_pos hnorm hreach
    simp only [hrow, blockCommutate, sign_mul_of_pos hy hpos, sign_mul_of_pos hb hpos, sign_mul_of_pos hg hpos]
  · simp [blockCommutate, sectorAmplitude_eq_zero hm hbelow]

/-- Refutes O30: at magnitude 8 and sector 0 all phases are 0, since 866·(8 >> 3) is below SINE_NORM 1000 (log 18). -/
theorem not_sineSignsMatchFromMagnitudeEight : ¬ Obligations.SineSignsMatchFromMagnitudeEight := by
  intro h
  have hsigns := h 8 0 (by decide)
  obtain ⟨-, hbelow, -⟩ := sineSignsMatchTheBlockRow Config.testProfile 8 0 rfl rfl rfl (by decide) (by decide)
  have hzero : sineCommutate Config.testProfile 8 (60 * ((0 : Fin 6).val : Int)) = ⟨0, 0, 0⟩ := hbelow (by decide)
  rw [hzero] at hsigns
  exact absurd hsigns (by decide)

end Sys2Proof.Machine
end

section
/-! SUPPORT. The waveform that SYNTH_STAGE selects (41_commutation.md R237, R242), one equation per case of its
conditional. -/

namespace Sys2Proof.Machine

/-- STEPPER drives the sine at the stepper's own angle. -/
theorem synthPhases_stepper {s : State} (h : s.ctrl.mode = .stepper) :
    synthPhases s = sineCommutate s.cfg s.ctrl.pwmOut s.ctrl.angleY := if_pos h

/-- Without a valid sector nothing is driven. -/
theorem synthPhases_noSector {s : State} (h : s.ctrl.mode ≠ .stepper) (hsector : s.hall.sectorValid = false) :
    synthPhases s = ⟨0, 0, 0⟩ := by
  rw [synthPhases, if_neg h, if_pos hsector]

theorem synthPhases_block {s : State} (h : s.ctrl.mode ≠ .stepper) (hsector : s.hall.sectorValid = true)
    (hcomm : s.conf.commMode = .block) : synthPhases s = blockCommutate s.cfg s.ctrl.pwmOut s.hall.sector := by
  rw [synthPhases, if_neg h, if_neg (by simp [hsector]), if_pos hcomm]

theorem synthPhases_sine {s : State} (h : s.ctrl.mode ≠ .stepper) (hsector : s.hall.sectorValid = true)
    (hcomm : s.conf.commMode = .sine) :
    synthPhases s = sineCommutate s.cfg s.ctrl.pwmOut (sectorAngle s.cfg s.hall.sector) := by
  rw [synthPhases, if_neg h, if_neg (by simp [hsector]), if_neg (by simp [hcomm])]

/-- The 16-bit pattern of a PWM value or of an angle stands for it. -/
theorem toInt_ofInt_half {v : Int} (h : Within 1000 v) : (BitVec.ofInt 16 v : Half).toInt = v := by
  obtain ⟨h1, h2⟩ := h
  exact BitVec.toInt_ofInt_eq_self (by decide) (by omega) (by omega)

/-- SINE_COMMUTATE issued with the patterns of a PWM value and of an angle answers its three phases (R232). -/
theorem exec_sineCommutate_ofInt {s : State} (h : s.Admitted) {m a : Int} (hm : Within 1000 m) (ha : Within 1000 a) :
    exec (.sineCommutate (BitVec.ofInt 16 m) (BitVec.ofInt 16 a)) s =
      .next { s with result := (sineCommutate s.cfg m a).toResult } := by
  rw [exec_of_admitted (i := .sineCommutate _ _) nofun h, opUpdate, toInt_ofInt_half hm, toInt_ofInt_half ha]

/-- BLOCK_COMMUTATE issued with the pattern of a PWM value answers its three phases (R230). -/
theorem exec_blockCommutate_ofInt {s : State} (h : s.Admitted) {pwm : Int} (hpwm : Within 1000 pwm) (k : Fin 6) :
    exec (.blockCommutate (BitVec.ofInt 16 pwm) k) s =
      .next { s with result := (blockCommutate s.cfg pwm k).toResult } := by
  rw [exec_of_admitted (i := .blockCommutate _ _) nofun h, opUpdate, toInt_ofInt_half hpwm]

/-- A pulse port holds its clamp wherever 16 bits can, and a value within the duty margins always (R30, R87, R240). -/
theorem pulsePort_pulseClamp {cfg : Config} (h : cfg.Legal) (x : Int) :
    (pulseClamp cfg x < 2 ^ 16 → ((pulsePort (pulseClamp cfg x)).toNat : Int) = pulseClamp cfg x) ∧
      10 ≤ ((pulsePort (pulseClamp cfg x)).toNat : Int) ∧
      ((pulsePort (pulseClamp cfg x)).toNat : Int) ≤ cfg.pwmRes - 10 := by
  obtain ⟨hlo, hhi⟩ := pulseClamp_margins h x
  obtain ⟨hport, hbelow⟩ := pulsePort_range hlo
  exact ⟨pulsePort_of_lt (by omega), hport, hbelow.trans hhi⟩

/-- Settles O32: the phases are `synthPhases`, and each case of the conditional is the operation of its operands. -/
theorem synthStageSelectsTheWaveform : Obligations.SynthStageSelectsTheWaveform := by
  intro s h hpwm hangle0 hangle pulse
  have hpulse : pulse = pulseClamp s.cfg := funext fun x => (pulseClamp_eq h.1 x).symm
  obtain ⟨hsector0, hsector⟩ := sectorAngle_range s.cfg s.hall.sector
  rw [hpulse]
  refine ⟨(synthPhases s).y, (synthPhases s).b, (synthPhases s).g, exec_of_admitted (i := .synthStage) nofun h,
    pulsePort_pulseClamp h.1, fun hmode => ?_, fun hmode hinvalid => ?_, fun hmode hvalid hblock => ?_,
    fun hmode hvalid hsine => ?_⟩
  · rw [synthPhases_stepper hmode]
    exact exec_sineCommutate_ofInt h hpwm ⟨by omega, by omega⟩
  · simp [synthPhases_noSector hmode hinvalid]
  · rw [synthPhases_block hmode hvalid hblock]
    exact exec_blockCommutate_ofInt h hpwm _
  · rw [synthPhases_sine hmode hvalid hsine]
    exact exec_sineCommutate_ofInt h hpwm ⟨by omega, by omega⟩

end Sys2Proof.Machine
end

section
/-! SUPPORT. The speed estimator (42_speed_estimator.md R271 to R279): the raw speed as a natural quotient, and
SPEED_STAGE's three cases, one equation each. -/

namespace Sys2Proof.Machine

/-- The raw speed of a period from 1 on is a signed natural quotient, or 0 at the ceiling (R274). -/
theorem rawSpeed_eq (cfg : Config) {period : Nat} (hp : 1 ≤ period) (dir : Direction) :
    rawSpeed cfg period dir =
      if cfg.maxPhasePeriod ≤ period then 0
      else ((cfg.speedTicksFactor / period : Nat) : Int) * dir.toInt := by
  rw [rawSpeed, tdiv_of_ne_zero (by omega), Int.ofNat_tdiv]

/-- A transition latches the count as the period (R271). -/
theorem speedStageRegs_transition {cfg : Config} {r : SpeedRegs} {cnt : Nat}
    (hcnt : cnt = min (r.phaseCnt + 1) cfg.maxPhasePeriod) (dir : Direction) :
    speedStageRegs cfg true dir r =
      speedUpdateRegs cfg (rawSpeed cfg cnt dir) { r with phaseCnt := 0, phasePeriod := cnt } := by
  rw [hcnt, speedStageRegs, if_pos rfl]

/-- At the ceiling without a transition the estimator is as after RESET (R277, R551). -/
theorem speedStageRegs_stall {cfg : Config} {r : SpeedRegs} (hcnt : cfg.maxPhasePeriod ≤ r.phaseCnt + 1)
    (dir : Direction) : speedStageRegs cfg false dir r = SpeedRegs.reset cfg := by
  simp [speedStageRegs, SpeedRegs.reset, hcnt]

/-- Below the ceiling and without a transition the latched period drives the filter (R273). -/
theorem speedStageRegs_between {cfg : Config} {r : SpeedRegs} (hcnt : r.phaseCnt + 1 < cfg.maxPhasePeriod)
    (dir : Direction) :
    speedStageRegs cfg false dir r =
      speedUpdateRegs cfg (rawSpeed cfg r.phasePeriod dir) { r with phaseCnt := r.phaseCnt + 1 } := by
  simp [speedStageRegs, hcnt.le, hcnt.ne]

/-- Without a transition the count goes up to the ceiling and stays there (R271, R272). -/
theorem speedStageRegs_phaseCnt (cfg : Config) (dir : Direction) (r : SpeedRegs) :
    (speedStageRegs cfg false dir r).phaseCnt = min (r.phaseCnt + 1) cfg.maxPhasePeriod := by
  obtain hcnt | hcnt := le_or_gt cfg.maxPhasePeriod (r.phaseCnt + 1)
  · rw [speedStageRegs_stall hcnt, min_eq_right hcnt, SpeedRegs.reset]
  · rw [speedStageRegs_between hcnt, min_eq_left hcnt.le, speedUpdateRegs]

/-- Settles O33: the filter step, and the range it shares with the PWM filter. -/
theorem speedUpdateFiltersTheRawSpeed : Obligations.SpeedUpdateFiltersTheRawSpeed := by
  intro raw s h reg
  refine ⟨exec_of_admitted (i := .speedUpdate raw) nofun h, fun hraw hrange => ?_⟩
  have hreg : FilterRange s.cfg.speedTicksFactor s.cfg.speedShift reg := filter_keeps_range hraw hrange
  exact ⟨hreg, filter_output hreg⟩

/-- Settles O34: a transition latches a count of at least 1; without one the count reaches the ceiling or not. -/
theorem speedStageFollowsItsPseudocode : Obligations.SpeedStageFollowsItsPseudocode := by
  intro s h hperiod cnt raw reg
  have hmax := h.1.maxPhasePeriod_pos.1
  have hraw : ∀ period, 1 ≤ period → rawSpeed s.cfg period s.hall.hallDir = raw period :=
    fun period hp => rawSpeed_eq s.cfg hp _
  rw [exec_of_admitted (i := .speedStage) nofun h]
  refine congrArg (fun r => Host.Outcome.next { s with speed := r }) ?_
  cases s.hall.transition with
  | true =>
    have hcnt : 1 ≤ cnt := by omega
    rw [speedStageRegs_transition (cnt := cnt) rfl, if_pos rfl, hraw _ hcnt]
    rfl
  | false =>
    rw [if_neg nofun]
    obtain hcnt | hcnt := le_or_gt s.cfg.maxPhasePeriod (s.speed.phaseCnt + 1)
    · have hceil : cnt = s.cfg.maxPhasePeriod := min_eq_right hcnt
      rw [speedStageRegs_stall hcnt, if_pos hceil, hceil, SpeedRegs.reset]
    · have hbelow : cnt = s.speed.phaseCnt + 1 := min_eq_left hcnt.le
      rw [speedStageRegs_between hcnt, if_neg (by omega), hbelow, hraw _ hperiod]
      rfl

end Sys2Proof.Machine
end

section
/-! SUPPORT. Standstill (42_speed_estimator.md R272, R277): ticks that report no other sector, counted up to the
ceiling. -/

namespace Sys2Proof.Machine

/-- The code reads NOFUNC or the sector already held, so it reports no sector change (R202, R210). -/
def KeepsSector (cfg : Config) (h : HallRegs) (c : BitVec 3) : Prop :=
  hallDecode cfg c = noFunc ∨ (h.sectorValid = true ∧ hallDecode cfg c = h.sector.val)

/-- Such a code sets the flags of HALL_STAGE and nothing else; `transition` is one it clears. -/
theorem hallStageRegs_of_keepsSector {cfg : Config} {h : HallRegs} {c : BitVec 3} (hc : KeepsSector cfg h c) :
    ∃ invalid, hallStageRegs cfg c h = { h with transition := false, validTr := false, hallInvalid := invalid } := by
  obtain hinvalid | ⟨hvalid, hsame⟩ := hc
  · exact ⟨true, hallStageRegs_hold (by rw [hinvalid]; decide)⟩
  · refine ⟨false, ?_⟩
    rw [hallStageRegs_move hsame hvalid]
    simp [hvalid]

/-- CTRL_TICK with such a code holds sector and odometer and runs the estimator without a transition (R451). -/
theorem opUpdate_ctrlTick_of_keepsSector {s : State} {c : BitVec 3} (hc : KeepsSector s.cfg s.hall c) (oc : Bool) :
    let t := opUpdate (.ctrlTick c oc) s
    t.hall.sector = s.hall.sector ∧ t.hall.sectorValid = s.hall.sectorValid ∧ t.hall.odo = s.hall.odo ∧
      t.speed = speedStageRegs s.cfg false s.hall.hallDir s.speed := by
  obtain ⟨invalid, hhall⟩ := hallStageRegs_of_keepsSector hc
  simp [opUpdate, ctrlTick, hhall]

/-- An operation that answers a next state hands it to the operations after it. -/
theorem execAll_cons_of_next {i : Instr} {s t : State} (h : exec i s = .next t) (is : List Instr) :
    execAll (i :: is) s = execAll is t := by
  rw [execAll, h]

/-- One or more ticks without a sector change stall the estimator if they bring the count to the ceiling. -/
theorem execAll_ctrlTick_stalls {ticks : List (BitVec 3 × Bool)} {s : State} (h : s.Admitted) (hne : ticks ≠ [])
    (hticks : ∀ x ∈ ticks, KeepsSector s.cfg s.hall x.1)
    (hlen : s.cfg.maxPhasePeriod ≤ s.speed.phaseCnt + ticks.length) :
    ∃ t, execAll (ticks.map (fun x => .ctrlTick x.1 x.2)) s = .next t ∧ t.speed = SpeedRegs.reset s.cfg ∧
      t.hall.sector = s.hall.sector ∧ t.hall.odo = s.hall.odo := by
  induction ticks generalizing s with
  | nil => exact absurd rfl hne
  | cons x rest ih =>
    obtain ⟨hsector, hvalid, hodo, hspeed⟩ :=
      opUpdate_ctrlTick_of_keepsSector (hticks x List.mem_cons_self) x.2
    rw [List.map_cons, execAll_cons_of_next (exec_of_admitted (i := .ctrlTick _ _) nofun h)]
    set u := opUpdate (.ctrlTick x.1 x.2) s
    have hcfg : u.cfg = s.cfg := rfl
    by_cases hrest : rest = []
    · subst hrest
      exact ⟨u, rfl, hspeed.trans (speedStageRegs_stall hlen _), hsector, hodo⟩
    · have hpos : 0 < rest.length := List.length_pos_iff.mpr hrest
      have hkeeps : ∀ y ∈ rest, KeepsSector u.cfg u.hall y.1 := fun y hy => by
        rw [KeepsSector, hcfg, hvalid, hsector]
        exact hticks y (List.mem_cons_of_mem x hy)
      have hcount : u.cfg.maxPhasePeriod ≤ u.speed.phaseCnt + rest.length := by
        rw [hcfg, hspeed, speedStageRegs_phaseCnt]
        rw [List.length_cons] at hlen
        omega
      obtain ⟨t, hrun, hstalled, htsector, htodo⟩ := ih (s := u) h hrest hkeeps hcount
      exact ⟨t, hrun, hstalled, htsector.trans hsector, htodo.trans hodo⟩

/-- Settles O35: from any count, MAX_PHASE_PERIOD ticks bring it to the ceiling; the stalled registers are those of
RESET. -/
theorem standstillReportsSpeedZero : Obligations.StandstillReportsSpeedZero := by
  intro ticks s h hticks hlen
  have hpos : 0 < ticks.length := h.1.maxPhasePeriod_pos.1.trans hlen
  obtain ⟨t, hrun, hstalled, hsector, hodo⟩ :=
    execAll_ctrlTick_stalls h (List.length_pos_iff.mp hpos) hticks (by omega)
  exact ⟨t, hrun, by simp [hstalled, SpeedRegs.reset, hsector, hodo]⟩

end Sys2Proof.Machine
end

section
/-! SUPPORT. The setters (43_speed_controller.md R301 to R308): the clamps as lattice operations, and SetSpeed's five
branches, one equation each. -/

namespace Sys2Proof.Machine

/-! ### The clamps -/

theorem clamp_pwmInMax (v : Int) : clamp v (-pwmInMax) pwmInMax = max (-1000) (min v 1000) :=
  clamp_eq_max_min (by decide) v

theorem clamp_speedSpMax (v : Int) : clamp v (-speedSpMax) speedSpMax = max (-5000) (min v 5000) :=
  clamp_eq_max_min (by decide) v

/-! ### SetSpeed -/

section
variable (cfg : Config) (hall : HallRegs) {th : Half} {v w : Int} {r : CtrlRegs}

/-- Speed 0 opens the loop (R303). -/
theorem setSpeedRegs_zero (hw : clamp v (-speedSpMax) speedSpMax = 0) :
    setSpeedRegs cfg hall th v r =
      { r with
        setpoint := 0, mode := .openLoop, pwmInput := 0, integral := 0, restartPending := false, stepCnt := 0 } := by
  rw [setSpeedRegs, if_pos hw]

/-- A speed above the threshold runs the closed loop (R304). -/
theorem setSpeedRegs_large (hw : clamp v (-speedSpMax) speedSpMax = w) (h0 : w ≠ 0) (hlarge : th.toNat < w.natAbs) :
    setSpeedRegs cfg hall th v r = { r with setpoint := w, mode := .running, restartPending := false } := by
  rw [setSpeedRegs, hw, if_neg h0, if_pos hlarge]

/-- A speed up to the threshold in RUNNING defers the entry into STEPPER (R305). -/
theorem setSpeedRegs_deferred (hw : clamp v (-speedSpMax) speedSpMax = w) (h0 : w ≠ 0)
    (hsmall : ¬ th.toNat < w.natAbs) (hmode : r.mode = .running) :
    setSpeedRegs cfg hall th v r = { r with setpoint := w, restartPending := true } := by
  simp only [setSpeedRegs, hw, if_neg h0, if_neg hsmall, hmode]

/-- A speed up to the threshold in OPEN enters STEPPER, at the sensed sector if there is one (R306). -/
theorem setSpeedRegs_entry (hw : clamp v (-speedSpMax) speedSpMax = w) (h0 : w ≠ 0)
    (hsmall : ¬ th.toNat < w.natAbs) (hmode : r.mode = .openLoop) :
    setSpeedRegs cfg hall th v r =
      { r with
        setpoint := w, mode := .stepper, stepCnt := 0
        angleY := if hall.sectorValid = true then sectorAngle cfg hall.sector else r.angleY } := by
  simp only [setSpeedRegs, hw, if_neg h0, if_neg hsmall, hmode, enterStepper]
  split <;> rfl

/-- A speed up to the threshold in STEPPER writes the setpoint only (R308). -/
theorem setSpeedRegs_setpoint (hw : clamp v (-speedSpMax) speedSpMax = w) (h0 : w ≠ 0)
    (hsmall : ¬ th.toNat < w.natAbs) (hmode : r.mode = .stepper) :
    setSpeedRegs cfg hall th v r = { r with setpoint := w } := by
  simp only [setSpeedRegs, hw, if_neg h0, if_neg hsmall, hmode]

end

/-! ### The setters as operations -/

/-- Settles O36: the operation writes `setPowerRegs`, whose one computed value is the clamped power. -/
theorem setPowerForcesOpenLoop : Obligations.SetPowerForcesOpenLoop := by
  intro v s h
  rw [exec_of_admitted (i := .setPower v) nofun h, opUpdate, setPower, setPowerRegs, clamp_pwmInMax]

/-- Settles O37: each condition of the chain selects one branch of SetSpeed. -/
theorem setSpeedChoosesTheMode : Obligations.SetSpeedChoosesTheMode := by
  intro v s h w
  have hw : clamp v.toInt (-speedSpMax) speedSpMax = w := clamp_speedSpMax _
  rw [exec_of_admitted (i := .setSpeed v) nofun h]
  refine congrArg (fun r => Host.Outcome.next { s with ctrl := r }) ?_
  by_cases h0 : w = 0
  · rw [if_pos h0, setSpeedRegs_zero _ _ (hw.trans h0)]
  · rw [if_neg h0]
    by_cases hlarge : s.conf.stepThresh.toNat < w.natAbs
    · rw [if_pos hlarge, setSpeedRegs_large _ _ hw h0 hlarge]
    · rw [if_neg hlarge]
      cases hmode : s.ctrl.mode with
      | running => rw [if_pos rfl, setSpeedRegs_deferred _ _ hw h0 hlarge hmode]
      | openLoop => rw [if_neg nofun, if_pos rfl, setSpeedRegs_entry _ _ hw h0 hlarge hmode]; rfl
      | stepper => rw [if_neg nofun, if_neg nofun, setSpeedRegs_setpoint _ _ hw h0 hlarge hmode]

end Sys2Proof.Machine
end

section
/-! SUPPORT. The steps of a control tick (43_speed_controller.md R310 to R327), their arithmetic as the library writes
it. -/

namespace Sys2Proof.Machine

/-- With a nonzero setpoint the stepper period is a natural quotient, at least one tick (R311). -/
theorem stepperPeriod_eq (cfg : Config) {setpoint : Int} (h : setpoint ≠ 0) :
    stepperPeriod cfg setpoint = ((max 1 (cfg.stepperK / setpoint.natAbs) : Nat) : Int) := by
  rw [stepperPeriod, tdiv_of_ne_zero (by omega), ← Int.ofNat_tdiv, Nat.cast_max, Nat.cast_one]

/-- The gains are scaled by 2^15 (R321). -/
theorem asr_gainShift (v : Int) : asr v gainShift = v / 32768 := rfl

/-- The integral is clamped within ±ILIMIT (R324). -/
theorem clamp_iLimit (cfg : Config) (v : Int) :
    clamp v (-cfg.iLimit) cfg.iLimit = max (-(cfg.iLimit : Int)) (min v cfg.iLimit) :=
  clamp_eq_max_min (by omega) v

/-- Settles O38: the period is reached or not. -/
theorem stepperStepAdvancesTheAngle : Obligations.StepperStepAdvancesTheAngle := by
  intro s h hsetpoint cnt
  rw [exec_of_admitted (i := .stepperStep) nofun h]
  simp only [opUpdate, stepperStepRegs, stepperPeriod_eq _ hsetpoint, sgn_eq_sign, Nat.cast_le, cnt]

/-- Settles O39: the operation writes `pidfRegs`; what differs is how clamp, sign and shift are written. -/
theorem pidfEvalFollowsItsPseudocode : Obligations.PidfEvalFollowsItsPseudocode := by
  intro s h
  rw [exec_of_admitted (i := .pidfEval) nofun h]
  simp only [opUpdate, pidfRegs, asr_gainShift, sgn_eq_sign, clamp_iLimit, clamp_pwmInMax, Nat.cast_lt]

/-- Settles O40: the filter step, and the range it shares with the speed filter. -/
theorem pwmFilterFollowsItsPseudocode : Obligations.PwmFilterFollowsItsPseudocode := by
  intro x s h reg
  refine ⟨exec_of_admitted (i := .pwmFilter x) nofun h, fun hx hrange => ?_⟩
  have hreg : FilterRange 1000 s.cfg.pwmShift reg := filter_keeps_range hx hrange
  exact ⟨hreg, filter_output hreg⟩

end Sys2Proof.Machine
end

section
/-! SUPPORT. CTRL_STAGE as its steps run one after the other (43_speed_controller.md R330). -/

namespace Sys2Proof.Machine

/-! ### The steps before the PIDF -/

/-- The restart check of CTRL_STAGE as a step of the state (R307, R330); `ctrlStage_eq_drive` ties it to `ctrlStage`. -/
def restartStep (s : State) : State := { s with ctrl := phaseRestart s.cfg s.hall s.ctrl }

/-- STEPPER_STEP where CTRL_STAGE runs it (R330); `ctrlStage_eq_drive` ties it to `ctrlStage`. -/
def stepperStage (s : State) : State := if s.ctrl.mode = .stepper then opUpdate .stepperStep s else s

theorem stepperStage_ctrl (s : State) :
    (stepperStage s).ctrl = if s.ctrl.mode = .stepper then stepperStepRegs s.cfg s.ctrl else s.ctrl :=
  apply_ite State.ctrl _ _ _

theorem ctrlStage_eq_drive (s : State) :
    ctrlStage s =
      { s with ctrl := driveRegs s.cfg s.speed.speedFilt (stepperStage (restartStep s)).ctrl } := by
  rw [stepperStage_ctrl]
  rfl

/-- STEPPER_STEP writes the controller only, and neither its mode nor the open-loop input. -/
theorem stepperStage_frame (s : State) :
    stepperStage s = { s with ctrl := (stepperStage s).ctrl } ∧ (stepperStage s).ctrl.mode = s.ctrl.mode ∧
      (stepperStage s).ctrl.pwmInput = s.ctrl.pwmInput := by
  simp only [stepperStage]
  split
  · exact ⟨rfl, stepperStepRegs_mode _ _, stepperStepRegs_pwmInput _ _⟩
  · exact ⟨rfl, rfl, rfl⟩

/-! ### The steps as operations -/

/-- In an admitted state an operation that runs under a condition answers its update, or the state. -/
theorem execAll_ite {i : Instr} (hi : i ≠ .reset) {s : State} (h : s.Admitted) (c : Prop) [Decidable c] :
    execAll (if c then [i] else []) s = .next (if c then opUpdate i s else s) := by
  split
  · rw [execAll_cons_of_next (exec_of_admitted hi h), execAll]
  · rfl

theorem execAll_ite_not {i : Instr} (hi : i ≠ .reset) {s : State} (h : s.Admitted) (c : Prop) [Decidable c] :
    execAll (if c then [] else [i]) s = .next (if c then s else opUpdate i s) := by
  simpa only [ite_not] using execAll_ite hi h (¬ c)

/-- PWM_FILTER issued with the pattern of a PWM value filters the value (R327). -/
theorem exec_pwmFilter_ofInt {s : State} (h : s.Admitted) {x : Int} (hx : Within 1000 x) :
    exec (.pwmFilter (BitVec.ofInt 16 x)) s = .next { s with ctrl := pwmFilterRegs s.cfg x s.ctrl } := by
  rw [exec_of_admitted (i := .pwmFilter _) nofun h, opUpdate, toInt_ofInt_half hx]

theorem pidfRegs_pidOut_within (cfg : Config) (speedFilt : Int) (r : CtrlRegs) :
    Within 1000 (pidfRegs cfg speedFilt r).pidOut := within_clamp (by decide) _

/-- The filter runs on `pwmInput` in OPEN, else on what PIDF_EVAL returns (R330). -/
theorem exec_pwmFilter_drive {s : State} (h : s.Admitted) (hpwm : Within 1000 s.ctrl.pwmInput) :
    let v := if s.ctrl.mode = .openLoop then s else opUpdate .pidfEval s
    exec (.pwmFilter (BitVec.ofInt 16 (if s.ctrl.mode = .openLoop then v.ctrl.pwmInput else v.ctrl.pidOut))) v =
      .next { s with ctrl := driveRegs s.cfg s.speed.speedFilt s.ctrl } := by
  by_cases hm : s.ctrl.mode = .openLoop
  · simp only [if_pos hm, driveRegs]
    exact exec_pwmFilter_ofInt h hpwm
  · simp only [if_neg hm, driveRegs]
    exact exec_pwmFilter_ofInt (s := opUpdate .pidfEval s) h (pidfRegs_pidOut_within _ _ _)

/-- Settles O41: the restart, then each step under its condition; neither the restart nor STEPPER_STEP writes
`pwmInput`, and STEPPER_STEP keeps the mode that the later conditions read. -/
theorem ctrlStageRunsItsStepsInOrder : Obligations.CtrlStageRunsItsStepsInOrder := by
  intro s h hpwm s1
  have hs1 : s1 = restartStep s := by
    simp only [s1, restartStep, phaseRestart]
    split <;> rfl
  obtain ⟨hframe, hmode, hinput⟩ := stepperStage_frame (restartStep s)
  have hstage := ctrlStage_eq_drive s
  rw [hs1, ← hmode]
  set u := stepperStage (restartStep s)
  have hu : u.Admitted := by rw [hframe]; exact h
  have hpwmu : Within 1000 u.ctrl.pwmInput := by rw [hinput]; simpa [restartStep] using hpwm
  refine ⟨u, if u.ctrl.mode = .openLoop then u else opUpdate .pidfEval u, ctrlStage s, ?_, ?_, ?_,
    exec_of_admitted (i := .ctrlStage) nofun h⟩
  · rw [hmode]
    exact execAll_ite (i := .stepperStep) (s := restartStep s) nofun h _
  · exact execAll_ite_not (i := .pidfEval) nofun hu _
  · rw [exec_pwmFilter_drive hu hpwmu, hstage, hframe]
    rfl

end Sys2Proof.Machine
end

section
/-! SUPPORT. What changes `mode` or `restartPending` (43_speed_controller.md R309): each operation keeps both, or is an
event of the mode table. -/

namespace Sys2Proof.Machine

/-- `t` has the mode and the pending restart of `s`. -/
structure SameMode (s t : State) : Prop where
  mode : t.ctrl.mode = s.ctrl.mode
  restartPending : t.ctrl.restartPending = s.ctrl.restartPending

namespace SameMode

theorem refl (s : State) : SameMode s s := ⟨rfl, rfl⟩

theorem trans {s t u : State} (h : SameMode s t) (k : SameMode t u) : SameMode s u :=
  ⟨k.mode.trans h.mode, k.restartPending.trans h.restartPending⟩

end SameMode

/-- The commands of the mode table: the two that call a setter, and XXX (R403, R407, R408). -/
def CmdName.SetsMode (n : CmdName) : Prop := n = .pow ∨ n = .spe ∨ n = .xxx

/-! ### The commands, the dispatcher and the parser -/

theorem runCommand_sameMode_or (n : CmdName) (pl : List Byte) (s : State) :
    SameMode s (runCommand (some n) pl s) ∨ n.SetsMode := by
  have hite {q : Prop} [Decidable q] {t : State} (ht : SameMode s t) : SameMode s (if q then t else s) := by
    split
    · exact ht
    · exact .refl s
  cases n with
  | ena | dis | res => exact .inl ⟨rfl, rfl⟩
  | dog | mod => exact .inl (hite ⟨rfl, rfl⟩)
  | pow | spe | xxx => exact .inr (by simp [CmdName.SetsMode])

/-- DISPATCH keeps the mode, or its frame carries a command of the mode table (R400). -/
theorem dispatch_sameMode_or (f : Frame) (s : State) :
    SameMode s (dispatch f s) ∨ ∃ n, s.cfg.cmdCode.lookup f.cid = some n ∧ n.SetsMode := by
  have hreload : SameMode s (reload s) := ⟨rfl, rfl⟩
  have hreply (u : State) : SameMode u (reply f.seq f.cid f.rid u) := ⟨rfl, rfl⟩
  by_cases hsets : ∃ n, s.cfg.cmdCode.lookup f.cid = some n ∧ n.SetsMode
  · exact .inr hsets
  · have hcommand : SameMode s (runCommand (s.cfg.cmdCode.lookup f.cid) f.payload (reload s)) := by
      cases hn : s.cfg.cmdCode.lookup f.cid with
      | none => exact hreload
      | some n =>
        exact hreload.trans ((runCommand_sameMode_or n _ _).resolve_right fun h => hsets ⟨n, hn, h⟩)
    refine .inl ?_
    cases hf : filtered s.cfg f with
    | true => rw [dispatch_filtered hf]; exact .refl s
    | false =>
      by_cases hr : f.rid = s.cfg.rspCode.nor
      · rw [dispatch_quiet hf hr]
        exact hcommand
      · rw [dispatch_reply hf hr]
        exact hcommand.trans (hreply _)

/-- RX_PARSE keeps the mode, or completes a frame with a command of the mode table (R366). -/
theorem rxParse_sameMode_or (b : Byte) (s : State) :
    SameMode s (rxParse b s) ∨
      ∃ p f n, parseByte s.cfg b s.parser = (p, some f) ∧ s.cfg.cmdCode.lookup f.cid = some n ∧ n.SetsMode := by
  obtain ⟨p, -, hrx⟩ | ⟨p, f, hp, -, hrx⟩ := rxParse_cases b s
  · rw [hrx]
    exact .inl ⟨rfl, rfl⟩
  · rw [hrx]
    obtain hsame | ⟨n, hn, hsets⟩ := dispatch_sameMode_or f { s with parser := p }
    · exact .inl ⟨hsame.mode, hsame.restartPending⟩
    · exact .inr ⟨p, f, n, hp, hn, hsets⟩

/-! ### The controller's tick and the watchdog's -/

/-- CTRL_STAGE keeps the mode, or restarts: RUNNING with a pending restart goes to STEPPER on a transition (R307). -/
theorem ctrlStage_sameMode_or (s : State) :
    SameMode s (ctrlStage s) ∨
      (s.ctrl.restartPending = true ∧ s.ctrl.mode = .running ∧ s.hall.transition = true ∧
        (ctrlStage s).ctrl.mode = .stepper ∧ (ctrlStage s).ctrl.restartPending = false) := by
  by_cases hrestart : s.ctrl.restartPending = true ∧ s.hall.transition = true ∧ s.ctrl.mode = .running
  · obtain ⟨hpending, htransition, hmode⟩ := id hrestart
    exact .inr ⟨hpending, hmode, htransition, by simp [phaseRestart, hrestart]⟩
  · exact .inl ⟨by simp [phaseRestart, hrestart], by simp [phaseRestart, hrestart]⟩

/-- WDT_TICK keeps the mode, or expires the watchdog, which opens the loop (R465, R466). -/
theorem wdtTick_sameMode_or (s : State) :
    SameMode s (wdtTick s) ∨
      (s.safety.wdtExpired = false ∧ (wdtTick s).safety.wdtExpired = true ∧ (wdtTick s).ctrl.mode = .openLoop ∧
        (wdtTick s).ctrl.restartPending = false) := by
  obtain hs | ⟨-, hs⟩ | ⟨hexp, hs⟩ := wdtTick_cases s
  · rw [hs]
    exact .inl (.refl s)
  · rw [hs]
    exact .inl ⟨rfl, rfl⟩
  · rw [hs]
    exact .inr ⟨hexp, rfl, rfl, rfl⟩

/-- Settles O42: the operations outside the mode table keep the mode, and each of the others that is not one of its
events by itself keeps the mode or meets its condition. -/
theorem onlyTheModeTableChangesTheMode : Obligations.OnlyTheModeTableChangesTheMode := by
  intro i s t h hchanged
  obtain rfl := exec_next h
  have hdiff : ¬ SameMode s (opUpdate i s) := fun hsame =>
    hchanged.elim (fun hmode => hmode hsame.mode) fun hpending => hpending hsame.restartPending
  cases i with
  | reset | setPower | setSpeed | pow | spe | xxx | expire => trivial
  | dispatch f => exact (dispatch_sameMode_or f s).resolve_left hdiff
  | rxParse b => exact (rxParse_sameMode_or b s).resolve_left hdiff
  | rxByte b v u =>
    exact (rxParse_sameMode_or b { s with ports := { s.ports with vbat := v, ibus := u } }).resolve_left
      fun hsame => hdiff ⟨hsame.mode, hsame.restartPending⟩
  | ctrlStage => exact (ctrlStage_sameMode_or s).resolve_left hdiff
  | ctrlTick c oc =>
    exact (ctrlStage_sameMode_or (speedStage (hallStage c { s with ports := { s.ports with overcurrent := oc } }))
      ).resolve_left fun hsame => hdiff ⟨hsame.mode, hsame.restartPending⟩
  | wdtTick => exact (wdtTick_sameMode_or s).resolve_left hdiff
  | dog pl => exact hdiff ((runCommand_sameMode_or .dog pl s).resolve_right (by simp [CmdName.SetsMode]))
  | mod pl => exact hdiff ((runCommand_sameMode_or .mod pl s).resolve_right (by simp [CmdName.SetsMode]))
  | stepperStep => exact hdiff ⟨stepperStepRegs_mode _ _, stepperStepRegs_restartPending _ _⟩
  | hallStage | hallDecode | speedStage | speedUpdate | pidfEval | pwmFilter | synthStage | blockCommutate
  | sineCommutate | pulseClamp | crc16 | frameCheck | reply | ena | dis | res | unknownCmd | rspNor | rspSpeed
  | rspPosition | rspBattery | rspCurrent | rspPwm | rspWatchdog | rspPidf | rspTelemetry | rspUnknown =>
    exact hdiff ⟨rfl, rfl⟩

end Sys2Proof.Machine
end

section
/-! SUPPORT. CRC16 as an iteration of its one-bit step, which loses no information: a sequence that differs in one byte
has another CRC (44_frame_parser.md R350, R371). -/

namespace Sys2Proof.Machine

/-! ### The one-bit step -/

/-- The bit that a shift of R350 drops stands in bit 0 of the result: the polynomial is odd. -/
theorem crcShift_getLsbD_zero (c : Half) : (crcShift c).getLsbD 0 = c.msb := by
  cases hc : c.msb <;> simp [crcShift, hc]

theorem crcShift_injective : Function.Injective crcShift := by
  intro c d h
  have hmsb : c.msb = d.msb := by rw [← crcShift_getLsbD_zero c, h, crcShift_getLsbD_zero d]
  have hshift : c <<< 1 = d <<< 1 := by
    cases hd : d.msb <;> simpa [crcShift, hmsb, hd] using h
  apply BitVec.eq_of_getLsbD_eq
  intro i hi
  by_cases htop : i = 15
  · subst htop
    exact hmsb
  · have hbit := congrArg (BitVec.getLsbD · (i + 1)) hshift
    simpa [hi, show i + 1 < 16 by omega] using hbit

/-! ### One byte and the whole sequence -/

theorem crcByte_eq_iterate (c : Half) (b : Byte) : crcByte c b = crcShift^[8] (c ^^^ (b ++ 0#8)) := rfl

theorem crcByte_injective_crc (b : Byte) : Function.Injective (crcByte · b) := by
  intro c d h
  simp only [crcByte_eq_iterate] at h
  have hxor : c ^^^ (b ++ 0#8) = d ^^^ (b ++ 0#8) := crcShift_injective.iterate 8 h
  exact (BitVec.xor_left_inj _).mp hxor

theorem crcByte_injective_byte (c : Half) : Function.Injective (crcByte c) := by
  intro b d h
  simp only [crcByte_eq_iterate] at h
  have hxor : c ^^^ (b ++ 0#8) = c ^^^ (d ++ 0#8) := crcShift_injective.iterate 8 h
  have happend : b ++ 0#8 = d ++ 0#8 := (BitVec.xor_right_inj _).mp hxor
  have hhigh := congrArg (BitVec.extractLsb' 8 8) happend
  rwa [BitVec.extractLsb'_append_eq_left, BitVec.extractLsb'_append_eq_left] at hhigh

theorem foldl_crcByte_injective (m : List Byte) : Function.Injective (m.foldl crcByte) := by
  induction m with
  | nil => exact Function.injective_id
  | cons b m ih => exact ih.comp (crcByte_injective_crc b)

/-- Two sequences that differ in one byte have different CRCs. -/
theorem crc16_set_injective {m : List Byte} {k : Nat} (h : k < m.length) :
    Function.Injective fun b => crc16 (m.set k b) := by
  intro b d hcrc
  simp only [crc16, List.set_eq_take_append_cons_drop, if_pos h, List.foldl_append, List.foldl_cons] at hcrc
  exact crcByte_injective_byte _ (foldl_crcByte_injective _ hcrc)

/-- Settles O13: a flipped bit makes another byte. -/
theorem crcDetectsEverySingleBitError : Obligations.CrcDetectsEverySingleBitError := by
  intro m k bit h hbit hcrc
  have hsame : m[k] ^^^ (1#8 <<< bit) = m[k] := by
    apply crc16_set_injective h
    simpa only [List.set_getElem_self] using hcrc
  have hzero : 1#8 <<< bit = 0#8 := by
    rwa [← BitVec.xor_zero (x := m[k]), BitVec.xor_assoc, BitVec.xor_right_inj, BitVec.zero_xor] at hsame
  have hone : ∀ n < 8, 1#8 <<< n ≠ 0#8 := by decide
  exact hone bit hbit hzero

/-! ### As operations -/

/-- XORing a byte into the high byte (R350). -/
theorem append_zero_byte (b : Byte) : (b ++ 0#8 : Half) = b.setWidth 16 <<< 8 := by
  apply BitVec.eq_of_getLsbD_eq
  intro i hi
  simp only [BitVec.getLsbD_append, BitVec.getLsbD_shiftLeft, BitVec.getLsbD_setWidth]
  by_cases hlow : i < 8
  · simp [hlow]
  · simp [hlow, show i < 16 by omega, show i - 8 < 16 by omega]

/-- Settles O18: CRC16 is a fold of `crcByte`, whose shift is the rule's conditional. -/
theorem crcFollowsItsPseudocode : Obligations.CrcFollowsItsPseudocode := by
  refine ⟨fun bytes s h => exec_of_admitted (by simp) h, rfl, fun m b => ?_⟩
  rw [← append_zero_byte, crc16, List.foldl_append]
  rfl

theorem frameCheck_iff (cfg : Config) (buf : List Host.Cell) (len : Nat) :
    frameCheck cfg buf len = true ↔ Memory.read buf 0 = 0x2F#8 ∧ Memory.read buf (7 + len) = 0x0A#8 ∧
      (cfg.crcCheckEn = true → crc16 ((List.range (5 + len)).map (Memory.read buf)) =
        Memory.read buf (6 + len) ++ Memory.read buf (5 + len)) := by
  simp only [frameCheck, som, eom, half, Memory.slice, Nat.zero_add, Bool.and_eq_true, Bool.or_eq_true,
    Bool.not_eq_true', beq_iff_eq, and_assoc]
  cases cfg.crcCheckEn <;> simp

/-- Settles O19: the operation answers `frameCheck`, which holds exactly under the three tests. -/
theorem frameCheckFollowsItsPseudocode : Obligations.FrameCheckFollowsItsPseudocode := by
  intro len s h
  rw [exec_of_admitted (by simp) h]
  simp only [opUpdate, ← frameCheck_iff, Bool.decide_eq_true]

end Sys2Proof.Machine
end

section
/-! SUPPORT. One byte at the parser, branch by branch (44_frame_parser.md R361 to R366). -/

namespace Sys2Proof.Machine

/-! ### The least later SOM -/

theorem nextSom_eq_find?_range' (buf : List Host.Cell) (idx : Nat) :
    nextSom buf idx = (List.range' 1 (idx - 1)).find? (fun k => Memory.read buf k == som) := by
  rw [nextSom, List.range_eq_range', List.drop_range']

theorem nextSom_eq_none_iff {buf : List Host.Cell} {idx : Nat} :
    nextSom buf idx = none ↔ ∀ k, 1 ≤ k → k < idx → Memory.read buf k ≠ som := by
  simp only [nextSom_eq_find?_range', List.find?_range'_eq_none, Bool.not_eq_true', beq_eq_false_iff_ne]
  exact ⟨fun h k h1 h2 => h k h1 (by omega), fun h k h1 h2 => h k h1 (by omega)⟩

theorem nextSom_eq_some {buf : List Host.Cell} {idx j : Nat} (h1 : 1 ≤ j) (hj : j < idx)
    (hsom : Memory.read buf j = som) (hleast : ∀ k, 1 ≤ k → k < j → Memory.read buf k ≠ som) :
    nextSom buf idx = some j := by
  rw [nextSom_eq_find?_range', List.find?_range'_eq_some]
  refine ⟨by simp [hsom], List.mem_range'_1.mpr ⟨h1, by omega⟩, fun k hk hkj => ?_⟩
  simpa using hleast k hk hkj

/-! ### What a byte does to the parser's registers -/

/-- R362: the byte is stored at the next offset. -/
def Parser.append (b : Byte) (p : Parser) : Parser := { p with buf := Memory.write p.buf p.idx b, idx := p.idx + 1 }

/-- R365: the bytes from offset j on come to the front. -/
def Parser.shift (j : Nat) (p : Parser) : Parser :=
  { p with buf := Memory.shiftLeft p.buf j (p.idx - j), idx := p.idx - j }

/-- The payload length of the alignment at the front, once two bytes are held (R120). -/
def Parser.len (p : Parser) : Nat := (Memory.read p.buf 1).toNat

/-- The alignment at the front is incomplete, and its length legal as far as it is known (R362). -/
def Parser.Waits (p : Parser) : Prop := p.idx < 2 ∨ p.len ≤ maxPayload ∧ p.idx < p.len + frameOverhead

/-- All bytes of the alignment at the front are held (R364). -/
def Parser.Complete (p : Parser) : Prop := p.len ≤ maxPayload ∧ p.len + frameOverhead ≤ p.idx

/-- Where the alignment at the front stands (R362 to R364). -/
theorem Parser.front_cases (p : Parser) : p.Waits ∨ (2 ≤ p.idx ∧ maxPayload < p.len) ∨ p.Complete := by
  simp only [Parser.Waits, Parser.Complete]
  omega

theorem Parser.Complete.two_le {p : Parser} (h : p.Complete) : 2 ≤ p.idx := by
  obtain ⟨-, hcomplete⟩ := h
  simp only [frameOverhead] at hcomplete
  omega

theorem Parser.len_append {p : Parser} (hwf : Memory.wf p.buf = true) (hfits : p.idx < bufSize) (b : Byte) :
    (p.append b).len = (if p.idx = 1 then b else Memory.read p.buf 1).toNat := by
  simp only [Parser.len, Parser.append, Memory.read_write b hwf hfits, eq_comm]

theorem Parser.complete_of_len {p : Parser} {len : Fin 10} (hlen : p.len = len.val) (h : len.val + 8 ≤ p.idx) :
    p.Complete := by
  rw [Parser.Complete, hlen]
  exact ⟨Nat.le_of_lt_succ len.isLt, h⟩

/-- A byte shifted to the front is the one j offsets later (R365). -/
theorem Parser.read_shift {p : Parser} {j k : Nat} (hwf : Memory.wf p.buf = true) (hfits : p.idx ≤ bufSize)
    (hj : 1 ≤ j) (hk : k < p.idx - j) : Memory.read (p.shift j).buf k = Memory.read p.buf (k + j) := by
  simp only [Parser.shift]
  rw [Memory.read_shiftLeft _ hwf ((Nat.sub_le _ _).trans hfits) hj, if_pos hk]

theorem Parser.len_shift {p : Parser} {j : Nat} (hwf : Memory.wf p.buf = true) (hfits : p.idx ≤ bufSize)
    (hj : 1 ≤ j) (htwo : 2 ≤ p.idx - j) : (p.shift j).len = (Memory.read p.buf (j + 1)).toNat := by
  rw [Parser.len, Parser.read_shift hwf hfits hj htwo, Nat.add_comm]

/-! ### The check loop, one equation per branch -/

section
variable {cfg : Config} {n : Nat} {p : Parser}

/-- R362: the parser waits for more bytes. -/
theorem checkLoop_wait (h : p.Waits) : checkLoop cfg n p = (p, none) := by
  cases n with
  | zero => rfl
  | succ n =>
    obtain hshort | ⟨hlen, hincomplete⟩ := h
    · simp [checkLoop, hshort]
    · simp only [Parser.len] at hlen hincomplete
      simp [checkLoop, Nat.not_lt.mpr hlen, hincomplete]

/-- R363: an illegal length aborts. -/
theorem checkLoop_abort (htwo : 2 ≤ p.idx) (hlen : maxPayload < p.len) (hn : 1 ≤ n) :
    checkLoop cfg n p = (p.idle, none) := by
  obtain ⟨n, rfl⟩ := Nat.exists_eq_add_of_le' hn
  simp only [Parser.len] at hlen
  simp [checkLoop, hlen, Nat.not_lt.mpr htwo]

/-- R364, R365: a complete alignment is handed over when FRAME_CHECK passes, else dropped up to the next SOM. -/
theorem checkLoop_complete (h : p.Complete) :
    checkLoop cfg (n + 1) p =
      if frameCheck cfg p.buf p.len then (p.idle, some (frameOf p.buf p.len))
      else (nextSom p.buf p.idx).elim (p.idle, none) fun j => checkLoop cfg n (p.shift j) := by
  have htwo := h.two_le
  obtain ⟨hlen, hcomplete⟩ := h
  simp only [Parser.len] at hlen hcomplete
  rw [checkLoop, if_neg (Nat.not_lt.mpr htwo)]
  simp only [Nat.not_lt.mpr hlen, Nat.not_lt.mpr hcomplete, if_false]
  cases nextSom p.buf p.idx <;> rfl

theorem checkLoop_pass (h : p.Complete) (hcheck : frameCheck cfg p.buf p.len = true) :
    checkLoop cfg (n + 1) p = (p.idle, some (frameOf p.buf p.len)) := by
  rw [checkLoop_complete h, if_pos hcheck]

theorem checkLoop_discard (h : p.Complete) (hcheck : frameCheck cfg p.buf p.len = false)
    (hsom : nextSom p.buf p.idx = none) : checkLoop cfg (n + 1) p = (p.idle, none) := by
  simp [checkLoop_complete h, hcheck, hsom]

theorem checkLoop_shift {j : Nat} (h : p.Complete) (hcheck : frameCheck cfg p.buf p.len = false)
    (hsom : nextSom p.buf p.idx = some j) : checkLoop cfg (n + 1) p = checkLoop cfg n (p.shift j) := by
  simp [checkLoop_complete h, hcheck, hsom]

/-- As many passes as bytes are held suffice (R366). -/
theorem checkLoop_of_le (h : p.idx ≤ n) : checkLoop cfg n p = checkLoop cfg p.idx p := by
  obtain ⟨k, rfl⟩ := Nat.exists_eq_add_of_le h
  exact checkLoop_fuel (le_refl _)

end

/-! ### RX_PARSE -/

theorem parseByte_ignore {p : Parser} (hr : p.recording = false) {b : Byte} (hb : b ≠ som) (cfg : Config) :
    parseByte cfg b p = (p, none) := by
  simp [parseByte, hr, hb]

theorem parseByte_start {p : Parser} (hr : p.recording = false) {b : Byte} (hb : b = som) (cfg : Config) :
    parseByte cfg b p = ({ recording := true, idx := 1, buf := Memory.write p.buf 0 b }, none) := by
  simp [parseByte, hr, hb]

theorem parseByte_recording {p : Parser} (hr : p.recording = true) (cfg : Config) (b : Byte) :
    parseByte cfg b p = checkLoop cfg (p.idx + 1) (p.append b) := by
  rw [parseByte, if_neg (by simp [hr])]
  rfl

/-- R365: after a failed check the loop goes on with the alignment of the next SOM. -/
theorem parseByte_shift {p : Parser} {b : Byte} {j : Nat} {cfg : Config} (hr : p.recording = true)
    (hcomplete : (p.append b).Complete) (hcheck : frameCheck cfg (p.append b).buf (p.append b).len = false)
    (hsom : nextSom (p.append b).buf (p.append b).idx = some j) :
    parseByte cfg b p = checkLoop cfg ((p.append b).shift j).idx ((p.append b).shift j) := by
  obtain ⟨hj, -, -⟩ := nextSom_range hsom
  have hidx : ((p.append b).shift j).idx ≤ p.idx := Nat.sub_le_sub_left hj (p.idx + 1)
  rw [parseByte_recording hr, checkLoop_shift hcomplete hcheck hsom, checkLoop_of_le hidx]

/-- A check loop's parser is the one that the last of its bytes leaves, before the loop (R362). -/
theorem parseByte_last {p : Parser} (hr : p.recording = true) (hwf : Memory.wf p.buf = true) (hpos : 1 ≤ p.idx)
    (hfits : p.idx ≤ bufSize) (cfg : Config) :
    parseByte cfg (Memory.read p.buf (p.idx - 1)) { recording := true, idx := p.idx - 1, buf := p.buf } =
      checkLoop cfg p.idx p := by
  have hidx : p.idx - 1 + 1 = p.idx := Nat.sub_add_cancel hpos
  have hlast : p.idx - 1 < bufSize := Nat.lt_of_lt_of_le (Nat.sub_lt hpos Nat.one_pos) hfits
  have hp : p = { recording := true, idx := p.idx, buf := p.buf } := by rw [← hr]
  rw [parseByte_recording rfl, Parser.append, Memory.write_read hwf hlast, hidx, ← hp]

theorem rxParse_of_none {b : Byte} {s : State} {p : Parser} (h : parseByte s.cfg b s.parser = (p, none)) :
    rxParse b s = { s with parser := p } := by
  simp [rxParse, h]

theorem rxParse_of_some {b : Byte} {s : State} {p : Parser} {f : Frame}
    (h : parseByte s.cfg b s.parser = (p, some f)) : rxParse b s = dispatch f { s with parser := p } := by
  simp [rxParse, h]

/-- RX_PARSE reads the parser's registers through `parseByte` only. -/
theorem rxParse_eq_of_parseByte {b c : Byte} {s : State} {p : Parser}
    (h : parseByte s.cfg b s.parser = parseByte s.cfg c p) : rxParse b s = rxParse c { s with parser := p } := by
  simp [rxParse, h]

theorem State.Admitted.with_parser {s : State} (h : s.Admitted) (p : Parser) :
    ({ s with parser := p } : State).Admitted := h

theorem exec_rxParse {s : State} (h : s.Admitted) (b : Byte) : exec (.rxParse b) s = .next (rxParse b s) :=
  exec_of_admitted (by simp) h

/-- The answer of FRAME_CHECK is the check (R355). -/
theorem frameCheck_of_exec {s : State} {len : Fin 10} {v : Bool}
    (h : exec (.frameCheck len) s = .next { s with result := .valid v }) :
    frameCheck s.cfg s.parser.buf len.val = v := by
  have hresult := congrArg State.result (exec_next h)
  exact (OpResult.valid.inj hresult).symm

/-- Settles O15: one equation of the parser per clause. -/
theorem parserStartsAppendsAndAborts : Obligations.ParserStartsAppendsAndAborts := by
  intro b s h hwf
  refine ⟨fun hr hb => ?_, fun hr hb => ⟨_, exec_rxParse h b, ?_⟩, fun hr hidx => ⟨_, exec_rxParse h b, ?_⟩⟩
  · rw [exec_rxParse h, rxParse_of_none (parseByte_ignore hr hb _)]
  · rw [rxParse_of_none (parseByte_start hr hb _), ← hb]
    exact ⟨rfl, rfl, rfl, Memory.read_write b hwf (by decide : 0 < bufSize)⟩
  · have hfits : s.parser.idx < bufSize := Nat.lt_succ_of_le hidx
    have hread := Memory.read_write b hwf hfits
    have hparse := parseByte_recording hr s.cfg b
    rw [← Parser.len_append hwf hfits]
    refine ⟨fun hwait => ?_, fun hpos hlen => ?_⟩
    · have hwaits : (s.parser.append b).Waits := hwait.imp_left fun hzero => by simp [Parser.append, hzero]
      rw [rxParse_of_none (hparse.trans (checkLoop_wait hwaits))]
      exact ⟨rfl, hr, rfl, hread⟩
    · rw [rxParse_of_none (hparse.trans (checkLoop_abort (Nat.succ_le_succ hpos) hlen (Nat.le_add_left 1 _)))]
      exact ⟨rfl, rfl, rfl, hread⟩

/-- Settles O16: the appended byte completes an alignment that the check loop hands over. -/
theorem validatedFrameIsDispatched : Obligations.ValidatedFrameIsDispatched := by
  intro b s h hr _ _ buf s1 len hlen hcomplete hexec
  have hfront : (s.parser.append b).len = len.val := hlen
  have hcheck : frameCheck s.cfg buf len.val = true := frameCheck_of_exec hexec
  have hpass : parseByte s.cfg b s.parser = ((s.parser.append b).idle, some (frameOf buf len.val)) := by
    rw [parseByte_recording hr, checkLoop_pass (Parser.complete_of_len hfront hcomplete) (hfront ▸ hcheck), hfront]
    rfl
  rw [exec_rxParse h, rxParse_of_some hpass]
  exact (exec_of_admitted (i := .dispatch (frameOf buf len.val)) (by simp) (h.with_parser _)).symm

/-- Settles O17: the check loop drops the alignment; the shifted one is in one of the loop's branches again, and the
complete one is what the loop finds when its last byte arrives. -/
theorem failedCheckShiftsToTheNextSom : Obligations.FailedCheckShiftsToTheNextSom := by
  intro b s h hwf hr hpos hidx n buf s1 len hlen hcomplete hexec
  have hfront : (s.parser.append b).len = len.val := hlen
  have hcheck : frameCheck s.cfg (s.parser.append b).buf (s.parser.append b).len = false :=
    hfront ▸ frameCheck_of_exec hexec
  have hcomplete : (s.parser.append b).Complete := Parser.complete_of_len hfront hcomplete
  have hbuf : Memory.wf (s.parser.append b).buf = true := Memory.wf_write _ _ hwf
  have hfits : (s.parser.append b).idx ≤ bufSize := Nat.succ_le_succ hidx
  refine ⟨fun hnone => ?_, ?_⟩
  · have hdiscard := checkLoop_discard (n := s.parser.idx) hcomplete hcheck (nextSom_eq_none_iff.mpr hnone)
    rw [exec_rxParse h, rxParse_of_none ((parseByte_recording hr _ _).trans hdiscard)]
    rfl
  · intro j hj hjn hsom hleast len'
    have hshift := parseByte_shift hr hcomplete hcheck (nextSom_eq_some hj hjn hsom hleast)
    have hread {k : Nat} : k < n - j → Memory.read ((s.parser.append b).shift j).buf k = Memory.read buf (k + j) :=
      Parser.read_shift hbuf hfits hj
    have hlen' : 2 ≤ n - j → ((s.parser.append b).shift j).len = len' := Parser.len_shift hbuf hfits hj
    refine ⟨fun hwait => ⟨_, exec_rxParse h b, ?_⟩, fun htwo habort => ⟨_, exec_rxParse h b, ?_⟩,
      fun htwo _ _ => ⟨((s.parser.append b).shift j).buf, Memory.wf_shiftLeft _ _ hbuf, fun k => hread, ?_⟩⟩
    · have hwaits : ((s.parser.append b).shift j).Waits := by
        by_cases htwo : 2 ≤ n - j
        · exact .inr ((hlen' htwo).symm ▸ hwait.resolve_left (Nat.not_lt.mpr htwo))
        · exact .inl (Nat.not_le.mp htwo)
      rw [rxParse_of_none (hshift.trans (checkLoop_wait hwaits))]
      exact ⟨rfl, hr, rfl, fun k => hread⟩
    · rw [rxParse_of_none (hshift.trans (checkLoop_abort htwo ((hlen' htwo).symm ▸ habort) (Nat.sub_pos_of_lt hjn)))]
      exact ⟨rfl, rfl, rfl⟩
    · have hlast : Memory.read ((s.parser.append b).shift j).buf (n - j - 1) = Memory.read buf (n - 1) := by
        rw [hread (by omega), show n - j - 1 + j = n - 1 by omega]
      have hagain := parseByte_last (p := (s.parser.append b).shift j) hr (Memory.wf_shiftLeft _ _ hbuf)
        (Nat.sub_pos_of_lt hjn) ((Nat.sub_le _ _).trans hfits) s.cfg
      have hparse := hshift.trans (hagain.symm.trans (congrArg (parseByte s.cfg · _) hlast))
      rw [exec_rxParse h, rxParse_eq_of_parseByte hparse]
      exact (exec_rxParse (h.with_parser _) _).symm

end Sys2Proof.Machine
end

section
/-! SUPPORT. The bytes that the parser holds, as a list: what a byte does to them (44_frame_parser.md R361 to R366), and
FRAME_CHECK and the validated frame read from them. -/

namespace Sys2Proof.Machine

/-- The bytes of the alignment under way: `buf[0 .. idx-1]` (R360). -/
def Parser.held (p : Parser) : List Byte := Memory.slice p.buf 0 p.idx

namespace Parser

@[simp] theorem length_held (p : Parser) : p.held.length = p.idx := Memory.length_slice _ _ _

theorem getElem_held {p : Parser} {k : Nat} (hk : k < p.held.length) : p.held[k] = Memory.read p.buf k := by
  simp [held, Memory.slice]

theorem getD_held {p : Parser} {k : Nat} (hk : k < p.idx) (d : Byte) : p.held.getD k d = Memory.read p.buf k := by
  rw [List.getD_eq_getElem _ _ (p.length_held.symm ▸ hk), getElem_held]

/-- A slice within the held bytes. -/
theorem slice_eq_held {p : Parser} {lo n : Nat} (h : lo + n ≤ p.idx) :
    Memory.slice p.buf lo n = (p.held.drop lo).take n := by
  apply List.ext_getElem
  · simp only [Memory.length_slice, List.length_take, List.length_drop, length_held]
    omega
  · intro k _ _
    simp [Memory.slice, getElem_held]

theorem held_append {p : Parser} (hwf : Memory.wf p.buf = true) (hfits : p.idx < bufSize) (b : Byte) :
    (p.append b).held = p.held ++ [b] := by
  have hread := Memory.read_write b hwf hfits
  have hbefore : Memory.slice (Memory.write p.buf p.idx b) 0 p.idx = p.held :=
    Memory.slice_congr fun a _ ha => (hread a).trans (if_neg (by omega))
  rw [← hbefore]
  simp [held, append, Memory.slice, List.range_succ, hread]

theorem held_shift {p : Parser} (h : p.Recorded) {j : Nat} (hj : 1 ≤ j) : (p.shift j).held = p.held.drop j := by
  apply List.ext_getElem
  · simp [shift]
  · intro k hk _
    rw [length_held] at hk
    rw [getElem_held, read_shift h.wf h.fits hj hk, List.getElem_drop, getElem_held, Nat.add_comm]

theorem isIdle_of_not_recording {p : Parser} (h : p.Inv) (hr : p.recording = false) : p.IsIdle := by
  obtain ⟨-, hidle, -⟩ := h
  exact ⟨hr, hidle hr⟩

/-- In IDLE nothing is held, in RECORDING at least the SOM (R360). -/
theorem isIdle_iff_held {p : Parser} (h : p.Inv) : p.IsIdle ↔ p.held = [] := by
  rw [← List.length_eq_zero_iff, length_held]
  refine ⟨fun hidle => hidle.2, fun hzero => ?_⟩
  cases hr : p.recording with
  | false => exact isIdle_of_not_recording h hr
  | true =>
    obtain ⟨-, -, hrec⟩ := h
    obtain ⟨hpos, -⟩ := hrec hr
    omega

theorem inv_of_isIdle {p : Parser} (hwf : Memory.wf p.buf = true) (h : p.IsIdle) : p.Inv := by
  obtain ⟨hr, hidx⟩ := h
  exact ⟨hwf, fun _ => hidx, by simp [hr]⟩

section
variable {p : Parser}

theorem len_eq_held (h : 2 ≤ p.idx) : p.len = (p.held.getD 1 0#8).toNat := by
  rw [getD_held h, len]

/-- FRAME_CHECK of a complete alignment, on the held bytes (R355). -/
theorem frameCheck_eq_held (h : p.Complete) (cfg : Config) :
    frameCheck cfg p.buf p.len = (p.held.getD 0 0#8 == som && alignmentPasses cfg p.held 0) := by
  have htwo := h.two_le
  obtain ⟨-, hcomplete⟩ := h
  simp only [frameOverhead] at hcomplete
  simp only [alignmentPasses, ← len_eq_held htwo, Nat.zero_add, getD_held (p := p) (k := 0) (by omega),
    getD_held (p := p) (k := 7 + p.len) (by omega), getD_held (p := p) (k := 5 + p.len) (by omega),
    getD_held (p := p) (k := 6 + p.len) (by omega), ← slice_eq_held (p := p) (lo := 0) (n := 5 + p.len) (by omega)]
  rw [frameCheck, Bool.and_assoc]

/-- The frame of a complete alignment, on the held bytes (R364). -/
theorem frameOf_eq_held (h : p.Complete) :
    frameOf p.buf p.len = frameFields (p.held.getD 2 0#8) (p.held.getD 3 0#8) (p.held.getD 4 0#8)
      ((p.held.drop 5).take p.len) := by
  obtain ⟨-, hcomplete⟩ := h
  simp only [frameOverhead] at hcomplete
  rw [frameOf, getD_held (by omega), getD_held (by omega), getD_held (by omega), slice_eq_held (by omega)]

end

end Parser

/-! ### What the check loop finds in the held bytes -/

/-- A complete alignment that starts at the front of the bytes and passes FRAME_CHECK (R355, R364). -/
structure FrontPasses (cfg : Config) (bytes : List Byte) : Prop where
  som : bytes.getD 0 0#8 = som
  legal : (bytes.getD 1 0#8).toNat ≤ maxPayload
  complete : (bytes.getD 1 0#8).toNat + frameOverhead ≤ bytes.length
  passes : alignmentPasses cfg bytes 0 = true

/-- The outcome of a byte against the bytes received: the parser holds the last ones, and a frame that it hands over is
the front of some last ones. -/
structure Scans (cfg : Config) (bytes : List Byte) (r : Parser × Option Frame) : Prop where
  held : r.1.held <:+ bytes
  passes : r.2 ≠ none → ∃ a, a <:+ bytes ∧ FrontPasses cfg a

theorem Scans.of_none {cfg : Config} {bytes : List Byte} {p : Parser} (h : p.held <:+ bytes) :
    Scans cfg bytes (p, none) := ⟨h, fun hne => absurd rfl hne⟩

theorem Scans.of_suffix {cfg : Config} {bytes more : List Byte} {r : Parser × Option Frame} (h : Scans cfg bytes r)
    (hsuffix : bytes <:+ more) : Scans cfg more r :=
  ⟨h.held.trans hsuffix, fun hne => (h.passes hne).imp fun _ ⟨ha, hpasses⟩ => ⟨ha.trans hsuffix, hpasses⟩⟩

theorem Parser.frontPasses_held {cfg : Config} {p : Parser} (h : p.Complete)
    (hcheck : frameCheck cfg p.buf p.len = true) : FrontPasses cfg p.held := by
  rw [Parser.frameCheck_eq_held h, Bool.and_eq_true, beq_iff_eq] at hcheck
  obtain ⟨hsom, hpasses⟩ := hcheck
  have hlen := Parser.len_eq_held h.two_le
  obtain ⟨hlegal, hcomplete⟩ := h
  exact ⟨hsom, hlen ▸ hlegal, by rwa [← hlen, Parser.length_held], hpasses⟩

/-- Each pass of the check loop keeps the held bytes, drops some from the front, or drops all (R362 to R366). -/
theorem checkLoop_scans {p : Parser} (h : p.Recorded) (cfg : Config) (n : Nat) :
    Scans cfg p.held (checkLoop cfg n p) := by
  induction n generalizing p with
  | zero => exact .of_none (List.suffix_refl _)
  | succ n ih =>
    have hidle : p.idle.held <:+ p.held := List.nil_suffix
    obtain hwait | ⟨htwo, hlen⟩ | hcomplete := p.front_cases
    · rw [checkLoop_wait hwait]
      exact .of_none (List.suffix_refl _)
    · rw [checkLoop_abort htwo hlen (Nat.le_add_left 1 n)]
      exact .of_none hidle
    · cases hcheck : frameCheck cfg p.buf p.len with
      | true =>
        rw [checkLoop_pass hcomplete hcheck]
        exact ⟨hidle, fun _ => ⟨p.held, List.suffix_refl _, Parser.frontPasses_held hcomplete hcheck⟩⟩
      | false =>
        cases hsom : nextSom p.buf p.idx with
        | none =>
          rw [checkLoop_discard hcomplete hcheck hsom]
          exact .of_none hidle
        | some j =>
          obtain ⟨hj, -, -⟩ := nextSom_range hsom
          have hshifted : (p.shift j).Recorded := p.shift_recorded h hsom
          have hdropped : (p.shift j).held <:+ p.held := Parser.held_shift h hj ▸ List.drop_suffix j _
          rw [checkLoop_shift hcomplete hcheck hsom]
          exact (ih hshifted).of_suffix hdropped

/-- A byte starts an alignment where none is under way (R361). -/
theorem held_start {p : Parser} (h : p.Inv) (hr : p.recording = false) (b : Byte) :
    ({ recording := true, idx := 1, buf := Memory.write p.buf 0 b } : Parser).held = p.held ++ [b] := by
  obtain ⟨hwf, hidle, -⟩ := h
  have hidx := hidle hr
  rw [← Parser.held_append hwf (by rw [hidx]; decide), Parser.append, hidx]
  rfl

theorem held_append_of_inv {p : Parser} (h : p.Inv) (hr : p.recording = true) (b : Byte) :
    (p.append b).held = p.held ++ [b] := by
  have hfits : p.idx + 1 ≤ bufSize := (Parser.append_recorded h hr b).fits
  obtain ⟨hwf, -⟩ := h
  exact Parser.held_append hwf hfits b

/-- RX_PARSE against the bytes held before and the byte received (R361 to R366). -/
theorem parseByte_scans {p : Parser} (h : p.Inv) (cfg : Config) (b : Byte) :
    Scans cfg (p.held ++ [b]) (parseByte cfg b p) := by
  cases hr : p.recording with
  | false =>
    by_cases hb : b = som
    · rw [parseByte_start hr hb]
      refine .of_none ?_
      rw [held_start h hr]
    · have hnothing := (Parser.isIdle_iff_held h).mp (Parser.isIdle_of_not_recording h hr)
      rw [parseByte_ignore hr hb]
      refine .of_none ?_
      rw [hnothing]
      exact List.nil_suffix
  | true =>
    rw [parseByte_recording hr, ← held_append_of_inv h hr]
    exact checkLoop_scans (Parser.append_recorded h hr b) cfg _

end Sys2Proof.Machine
end

section
/-! SUPPORT. Byte sequences at the parser: what it holds and when it stays silent under condition P, and a whole frame
from its first byte to its last (44_frame_parser.md R370, R372). -/

namespace Sys2Proof.Machine

/-! ### Alignments inside a byte sequence -/

theorem getD_append_add (l bytes : List Byte) (k : Nat) : (l ++ bytes).getD (l.length + k) 0#8 = bytes.getD k 0#8 := by
  rw [List.getD_append_right _ _ _ _ (Nat.le_add_right _ _), Nat.add_sub_cancel_left]

/-- What stands before an alignment does not matter to its check. -/
theorem alignmentPasses_append_left (cfg : Config) (l bytes : List Byte) :
    alignmentPasses cfg (l ++ bytes) l.length = alignmentPasses cfg bytes 0 := by
  simp only [alignmentPasses, Nat.add_assoc, getD_append_add, List.drop_left, Nat.zero_add, List.drop_zero]

/-- What stands after a complete alignment does not matter to its check. -/
theorem alignmentPasses_append_right {cfg : Config} {bytes : List Byte}
    (h : (bytes.getD 1 0#8).toNat + frameOverhead ≤ bytes.length) (post : List Byte) :
    alignmentPasses cfg (bytes ++ post) 0 = alignmentPasses cfg bytes 0 := by
  simp only [frameOverhead] at h
  have hgetD {k : Nat} (hk : k < bytes.length) : (bytes ++ post).getD k 0#8 = bytes.getD k 0#8 :=
    List.getD_append _ _ _ _ hk
  simp only [alignmentPasses, Nat.zero_add, List.drop_zero, hgetD (k := 1) (by omega)]
  rw [hgetD (by omega), hgetD (by omega), hgetD (by omega), List.take_append_of_le_length (by omega)]

/-- Condition P at one alignment, on the bytes from its SOM on (R372). -/
theorem ConditionP.front {cfg : Config} {l bytes : List Byte} (h : ConditionP cfg (l ++ bytes)) (hne : 0 < bytes.length)
    (hsom : bytes.getD 0 0#8 = som) :
    2 ≤ bytes.length ∧ (maxPayload < (bytes.getD 1 0#8).toNat ∨
      (bytes.getD 1 0#8).toNat + frameOverhead ≤ bytes.length ∧ alignmentPasses cfg bytes 0 = false) := by
  have hfront := h l.length (by simpa using hne) ((getD_append_add l bytes 0).trans hsom)
  rw [getD_append_add, alignmentPasses_append_left, List.length_append] at hfront
  obtain ⟨htwo, hends⟩ := hfront
  exact ⟨by omega, hends.imp_right fun ⟨hcomplete, hfails⟩ => ⟨by omega, hfails⟩⟩

/-- Under condition P no alignment that is complete at some point passes. -/
theorem ConditionP.not_frontPasses {cfg : Config} {K pre a : List Byte} (h : ConditionP cfg K) (hpre : pre <+: K)
    (ha : a <:+ pre) : ¬ FrontPasses cfg a := by
  intro hpasses
  obtain ⟨post, rfl⟩ := hpre
  obtain ⟨l, rfl⟩ := ha
  have hcomplete := hpasses.complete
  simp only [frameOverhead] at hcomplete
  have hgetD {k : Nat} (hk : k < a.length) : (a ++ post).getD k 0#8 = a.getD k 0#8 := List.getD_append _ _ _ _ hk
  rw [List.append_assoc] at h
  obtain ⟨-, hends⟩ := ConditionP.front h (by simp; omega) ((hgetD (by omega)).trans hpasses.som)
  rw [hgetD (by omega), alignmentPasses_append_right hpasses.complete, hpasses.passes] at hends
  obtain habort | ⟨-, hfails⟩ := hends
  · exact absurd hpasses.legal (Nat.not_le.mpr habort)
  · exact absurd hfails (by decide)

/-- Under condition P no alignment is still under way at the end (R372). -/
theorem ConditionP.isIdle {cfg : Config} {K : List Byte} {p : Parser} (h : ConditionP cfg K) (hp : p.Inv)
    (hheld : p.held <:+ K) : p.IsIdle := by
  cases hr : p.recording with
  | false => exact Parser.isIdle_of_not_recording hp hr
  | true =>
    obtain ⟨-, -, hrec⟩ := hp
    obtain ⟨hpos, hsom, hwaits⟩ := hrec hr
    obtain ⟨l, rfl⟩ := hheld
    obtain ⟨htwo, hends⟩ := ConditionP.front h (by rwa [Parser.length_held]) ((Parser.getD_held hpos _).trans hsom)
    rw [Parser.length_held] at htwo hends
    obtain ⟨hlegal, hincomplete⟩ := hwaits htwo
    rw [Parser.getD_held htwo] at hends
    omega

/-! ### The bytes of a frame -/

theorem length_encodeFrame (f : Frame) : (encodeFrame f).length = f.payload.length + frameOverhead := by
  simp [encodeFrame_eq, bytes16, frameOverhead]

theorem alignmentPasses_encodeFrame {f : Frame} (h : f.payload.length ≤ maxPayload) (cfg : Config) :
    alignmentPasses cfg (encodeFrame f) 0 = true := by
  have hhead : (frameHead f).length = 5 + f.payload.length := by simp [frameHead]; omega
  have hlen : ((encodeFrame f).getD 1 0#8).toNat = f.payload.length := lengthByte_toNat h
  have htail (k : Nat) : (encodeFrame f).getD (5 + f.payload.length + k) 0#8 =
      (bytes16 (crc16 (frameHead f)) ++ [eom]).getD k 0#8 := by
    rw [encodeFrame, List.append_assoc, ← hhead, getD_append_add]
  have htake : (encodeFrame f).take (5 + f.payload.length) = frameHead f := by
    rw [encodeFrame, List.append_assoc, ← hhead, List.take_left]
  simp only [alignmentPasses, Nat.zero_add, hlen, List.drop_zero, htake]
  rw [show 7 + f.payload.length = 5 + f.payload.length + 2 by omega,
    show 6 + f.payload.length = 5 + f.payload.length + 1 by omega, htail 2, htail 1,
    show (encodeFrame f).getD (5 + f.payload.length) 0#8 = _ from htail 0]
  simp [bytes16]

/-- A parser that holds the first bytes of a frame knows its length from the second on (R121). -/
theorem len_of_held {f : Frame} (hf : f.payload.length ≤ maxPayload) {p : Parser} (h : p.held <+: encodeFrame f)
    (htwo : 2 ≤ p.idx) : p.len = f.payload.length := by
  obtain ⟨post, hpost⟩ := h
  have hsecond : p.held.getD 1 0#8 = (encodeFrame f).getD 1 0#8 := by
    rw [← hpost, List.getD_append _ _ _ _ (by rwa [Parser.length_held])]
  rw [Parser.len_eq_held htwo, hsecond]
  exact lengthByte_toNat hf

/-- A proper part of a frame leaves the parser waiting with that part held (R362). -/
theorem parseByte_frame_part {f : Frame} (hf : f.payload.length ≤ maxPayload) {p : Parser} (h : p.Inv) {b : Byte}
    (hpart : p.held ++ [b] <+: encodeFrame f) (hproper : (p.held ++ [b]).length < (encodeFrame f).length)
    (cfg : Config) : ∃ q, parseByte cfg b p = (q, none) ∧ q.held = p.held ++ [b] := by
  cases hr : p.recording with
  | false =>
    have hnothing := (Parser.isIdle_iff_held h).mp (Parser.isIdle_of_not_recording h hr)
    have hb : b = som := by
      rw [hnothing, encodeFrame_eq] at hpart
      exact (List.cons_prefix_cons.mp hpart).1
    exact ⟨_, parseByte_start hr hb cfg, held_start h hr b⟩
  | true =>
    have happend := held_append_of_inv h hr b
    have hwaits : (p.append b).Waits := by
      by_cases htwo : 2 ≤ (p.append b).idx
      · rw [← happend, length_encodeFrame, Parser.length_held] at hproper
        have hlen := len_of_held hf (happend ▸ hpart) htwo
        exact .inr ⟨hlen ▸ hf, hlen.symm ▸ hproper⟩
      · exact .inl (Nat.not_le.mp htwo)
    exact ⟨_, (parseByte_recording hr cfg b).trans (checkLoop_wait hwaits), happend⟩

/-- The last byte of a frame hands it over (R364, R370). -/
theorem parseByte_frame_last {f : Frame} (hf : f.payload.length ≤ maxPayload) {p : Parser} (h : p.Inv) {b : Byte}
    (hall : p.held ++ [b] = encodeFrame f) (cfg : Config) : ∃ q, parseByte cfg b p = (q, some f) ∧ q.IsIdle := by
  have hlength := congrArg List.length hall
  rw [length_encodeFrame, List.length_append, Parser.length_held] at hlength
  simp only [frameOverhead, List.length_singleton] at hlength
  cases hr : p.recording with
  | false =>
    obtain ⟨-, hidle, -⟩ := h
    have hidx := hidle hr
    omega
  | true =>
    have happend := (held_append_of_inv h hr b).trans hall
    have hidx : (p.append b).idx = f.payload.length + frameOverhead := hlength
    have htwo : 2 ≤ (p.append b).idx := hidx ▸ Nat.le_add_left 2 (f.payload.length + 6)
    have hlen := len_of_held hf (happend ▸ List.prefix_refl _) htwo
    have hcomplete : (p.append b).Complete := ⟨hlen ▸ hf, by rw [hlen, hidx]⟩
    have hcheck : frameCheck cfg (p.append b).buf (p.append b).len = true := by
      rw [Parser.frameCheck_eq_held hcomplete, happend, alignmentPasses_encodeFrame hf]
      rfl
    have hframe : frameOf (p.append b).buf (p.append b).len = f := by
      rw [Parser.frameOf_eq_held hcomplete, happend, hlen, encodeFrame_eq]
      simp [frameFields_append]
    refine ⟨(p.append b).idle, ?_, And.intro rfl rfl⟩
    rw [parseByte_recording hr, checkLoop_pass hcomplete hcheck, hframe]

end Sys2Proof.Machine
end

section
/-! SUPPORT. RX_BYTE transactions one after the other (44_frame_parser.md R370 to R372): sequences that change the
parser only, and the dispatch of the frame that completes. -/

namespace Sys2Proof.Machine

/-! ### DISPATCH and the parser -/

theorem runCommand_with_parser (c : Option CmdName) (pl : List Byte) (p : Parser) (s : State) :
    runCommand c pl { s with parser := p } = { runCommand c pl s with parser := p } := by
  cases c with
  | none => rfl
  | some c =>
    cases c with
    | ena | dis | res | xxx => rfl
    | pow | dog | mod | spe =>
      simp only [runCommand, cmdPow, cmdDog, cmdMod, cmdSpe]
      split <;> rfl

/-- DISPATCH neither reads nor writes the parser (R400). -/
theorem dispatch_with_parser (f : Frame) (p : Parser) (s : State) :
    dispatch f { s with parser := p } = { dispatch f s with parser := p } := by
  have hcommand := runCommand_with_parser (s.cfg.cmdCode.lookup f.cid) f.payload p (reload s)
  cases hf : filtered s.cfg f with
  | true => rw [dispatch_filtered (s := { s with parser := p }) hf, dispatch_filtered hf]
  | false =>
    by_cases hr : f.rid = s.cfg.rspCode.nor
    · rw [dispatch_quiet (s := { s with parser := p }) hf hr, dispatch_quiet hf hr]
      exact hcommand
    · rw [dispatch_reply (s := { s with parser := p }) hf hr, dispatch_reply hf hr]
      exact congrArg (reply f.seq f.cid f.rid) hcommand

/-! ### Byte sequences -/

/-- The RX_BYTE transactions of a byte sequence under the levels that the ports show. -/
abbrev receive (bytes : List Byte) (s : State) : Out := execAll (rxBytes s.ports.vbat s.ports.ibus bytes) s

theorem execAll_append_of_next {is js : List Instr} {s t : State} (h : execAll is s = .next t) :
    execAll (is ++ js) s = execAll js t := by
  induction is generalizing s with
  | nil =>
    cases h
    rfl
  | cons i is ih =>
    simp only [List.cons_append, execAll] at h ⊢
    split at h
    · exact ih h
    · cases h
    · cases h

theorem receive_append {pre post : List Byte} {s : State} {p : Parser}
    (h : receive pre s = .next { s with parser := p }) : receive (pre ++ post) s = receive post { s with parser := p } := by
  simp only [receive, rxBytes, List.map_append] at h ⊢
  exact execAll_append_of_next h

theorem receive_singleton {s : State} (h : s.Admitted) (b : Byte) : receive [b] s = .next (rxParse b s) :=
  execAll_cons_of_next (exec_of_admitted (by simp) h) []

/-- A relation between the bytes received and the parser that each byte keeps without handing a frame over: the sequence
changes the parser only, and ends in the relation. -/
theorem receive_silent {R : List Byte → Parser → Prop} {bytes : List Byte} {s : State} (h : s.Admitted)
    (hstart : R [] s.parser)
    (hbyte : ∀ pre b p, pre ++ [b] <+: bytes → R pre p →
      ∃ q, parseByte s.cfg b p = (q, none) ∧ R (pre ++ [b]) q) :
    ∃ q, receive bytes s = .next { s with parser := q } ∧ R bytes q := by
  induction bytes using List.reverseRecOn with
  | nil => exact ⟨s.parser, rfl, hstart⟩
  | append_singleton pre b ih =>
    obtain ⟨p, hpre, hp⟩ := ih fun pre' b' p' hprefix => hbyte pre' b' p' (hprefix.trans (List.prefix_append _ _))
    obtain ⟨q, hq, hR⟩ := hbyte pre b p (List.prefix_refl _) hp
    refine ⟨q, ?_, hR⟩
    rw [receive_append hpre, receive_singleton (h.with_parser p), rxParse_of_none (s := { s with parser := p }) hq]

/-- A sequence that meets condition P, received from IDLE, dispatches nothing and leaves the parser IDLE (R372). -/
theorem receive_conditionP {K : List Byte} {s : State} (h : s.Admitted) (hidle : s.parser.IsIdle) (hinv : s.parser.Inv)
    (hP : ConditionP s.cfg K) :
    ∃ q, receive K s = .next { s with parser := q } ∧ q.Inv ∧ q.IsIdle := by
  have hstart : s.parser.Inv ∧ s.parser.held <:+ [] :=
    ⟨hinv, (Parser.isIdle_iff_held hinv).mp hidle ▸ List.nil_suffix⟩
  obtain ⟨q, hK, hq, hheld⟩ := receive_silent (R := fun pre p => p.Inv ∧ p.held <:+ pre) h hstart
    fun pre b p hpre ⟨hp, hheld⟩ => by
      have hscans := (parseByte_scans hp s.cfg b).of_suffix (List.suffix_append_self_iff.mpr hheld)
      have hsilent : (parseByte s.cfg b p).2 = none := by
        by_contra hframe
        obtain ⟨a, ha, hpasses⟩ := hscans.passes hframe
        exact hP.not_frontPasses hpre ha hpasses
      exact ⟨_, Prod.ext rfl hsilent, parseByte_inv hp s.cfg b, hscans.held⟩
  exact ⟨q, hK, hq, hP.isIdle hq hheld⟩

/-- A proper part of a frame, received from IDLE, dispatches nothing and is held (R370). -/
theorem receive_frame_part {f : Frame} (hf : f.payload.length ≤ maxPayload) {part : List Byte} {s : State}
    (h : s.Admitted) (hidle : s.parser.IsIdle) (hinv : s.parser.Inv) (hpart : part <+: encodeFrame f)
    (hproper : part.length < (encodeFrame f).length) :
    ∃ q, receive part s = .next { s with parser := q } ∧ q.Inv ∧ q.held = part :=
  receive_silent (R := fun pre p => p.Inv ∧ p.held = pre) h ⟨hinv, (Parser.isIdle_iff_held hinv).mp hidle⟩
    fun pre b p hpre ⟨hp, hheld⟩ => by
      subst hheld
      obtain ⟨q, hparse, hq⟩ :=
        parseByte_frame_part hf hp (hpre.trans hpart) (hpre.length_le.trans_lt hproper) s.cfg
      have hinv' := parseByte_inv hp s.cfg b
      rw [hparse] at hinv'
      exact ⟨q, hparse, hinv', hq⟩

/-- A whole frame, received from IDLE, is dispatched on its last byte (R370). -/
theorem receive_frame {f : Frame} (hf : f.payload.length ≤ maxPayload) {s : State} (h : s.Admitted)
    (hidle : s.parser.IsIdle) (hinv : s.parser.Inv) :
    ∃ q, receive (encodeFrame f) s = .next { dispatch f s with parser := q } ∧ q.IsIdle := by
  obtain ⟨part, last, hframe⟩ : ∃ part last, encodeFrame f = part ++ [last] :=
    ⟨frameHead f ++ bytes16 (crc16 (frameHead f)), eom, rfl⟩
  obtain ⟨p, hpart, hp, hheld⟩ :=
    receive_frame_part hf h hidle hinv (part := part) (by simp [hframe]) (by simp [hframe])
  obtain ⟨q, hparse, hq⟩ := parseByte_frame_last hf hp (b := last) (by rw [hheld, hframe]) s.cfg
  refine ⟨q, ?_, hq⟩
  rw [hframe, receive_append hpart, receive_singleton (h.with_parser p),
    rxParse_of_some (s := { s with parser := p }) hparse, ← dispatch_with_parser]

/-! ### The statements -/

/-- Settles O11: condition P keeps the parser silent and brings it back to IDLE, where the frame is received. -/
theorem resynchronisationUnderConditionP : Obligations.ResynchronisationUnderConditionP := by
  intro K f s h hidle hwf hframe hP
  have hf : f.payload.length ≤ maxPayload := of_decide_eq_true hframe
  obtain ⟨p, hK, hp, hpidle⟩ := receive_conditionP h hidle (Parser.inv_of_isIdle hwf hidle) hP
  refine ⟨⟨_, hK, hpidle, rfl⟩, fun n hn => ?_, ?_⟩
  · obtain ⟨q, hpart, -⟩ := receive_frame_part hf (h.with_parser p) hpidle hp (List.take_prefix n _)
      ((List.length_take_le n _).trans_lt hn)
    exact ⟨_, (receive_append hK).trans hpart, rfl⟩
  · obtain ⟨q, hall, hq⟩ := receive_frame hf (h.with_parser p) hpidle hp
    rw [dispatch_with_parser] at hall
    exact ⟨_, _, (receive_append hK).trans hall, hq, exec_of_admitted (by simp) h, rfl⟩

/-- Settles O10: the empty sequence meets condition P, so a frame from IDLE is R372 with nothing before it. -/
theorem frameRoundTripThroughTheParser : Obligations.FrameRoundTripThroughTheParser := by
  intro f s h hidle hwf hframe
  have hempty : ConditionP s.cfg [] := fun j hj => absurd hj (Nat.not_lt_zero j)
  obtain ⟨-, hparts, hall⟩ := resynchronisationUnderConditionP [] f s h hidle hwf hframe hempty
  exact ⟨hparts, hall⟩

end Sys2Proof.Machine
end

section
/-! SUPPORT. A frame that holds a whole frame in its payload: the case that 44_frame_parser.md R371 leaves out (R365,
log 18). -/

namespace Sys2Proof.Machine

/-- ENA to every address, without a reply (R130). -/
def enaRequest : Frame := { seq := 0#4, dest := 0#4, cid := 3#8, rid := 0#8, payload := [] }

/-- A frame whose payload is the whole frame of ENA. -/
def nestedRequest : Frame := { enaRequest with cid := 0x55#8, payload := encodeFrame enaRequest }

/-- The outer frame with bit 0 of its cmdId flipped. -/
def damagedRequest : List Byte :=
  (encodeFrame nestedRequest).set 3 ((encodeFrame nestedRequest)[3]'(by decide) ^^^ (1#8 <<< 0))

/-- The operations completed and left the power stage enabled. -/
def enables : Out → Bool
  | .next t => t.safety.enable
  | _ => false

/-- The CRC of the outer frame fails, and the shift to the next SOM finds the inner one complete (R365, R366). -/
theorem damagedRequest_enables : enables (execAll (rxBytes 0#16 0#16 damagedRequest) State.reset) = true := by
  decide +kernel

/-- Refutes O14: with one bit of the outer frame flipped, its payload's frame is dispatched, which enables the power
stage. -/
theorem not_noFrameDispatchedAfterAnySingleBitError : ¬ Obligations.NoFrameDispatchedAfterAnySingleBitError := by
  intro h
  obtain ⟨t, hrun, hparser⟩ := h nestedRequest 3 0 (by decide) (by decide) (by decide)
  have henables := damagedRequest_enables
  rw [damagedRequest, hrun] at henables
  have hstays : t.safety.enable = false := congrArg (fun u => u.safety.enable) hparser
  exact absurd (hstays.symm.trans henables) (by decide)

end Sys2Proof.Machine
end

section
/-! SUPPORT. The bytes that a reply carries: the low bits of an exact integer, least significant byte first
(00_scope.md R12, 20_memory.md R83), the payloads built from them (45_command_dispatcher.md R421 to R428), and the
status byte (30_encoding.md R137). -/

namespace Sys2Proof.Machine

/-! ### The bytes of an integer -/

/-- Byte `k` of an integer in two's complement. `extractLsb'_ofInt` ties it to the bytes of a pattern. -/
def intByte (v : Int) (k : Nat) : Byte := BitVec.ofInt 8 (v / 256 ^ k)

@[simp] theorem intByte_zero (v : Int) : intByte v 0 = BitVec.ofInt 8 v := by simp [intByte]

@[simp] theorem intByte_one (v : Int) : intByte v 1 = BitVec.ofInt 8 (v / 256) := by simp [intByte]

/-- A remainder by a multiple of `256 * a` has the digit of weight `a` of the number itself. -/
theorem emod_ediv_emod_256 {a : Int} (ha : a ≠ 0) (v n : Int) : v % (a * (256 * n)) / a % 256 = v / a % 256 := by
  rw [Int.emod_def v, Int.mul_assoc, Int.sub_mul_ediv_left _ _ ha, Int.mul_assoc, Int.sub_mul_emod_self_left]

/-- A byte of a pattern is that byte of the integer which the pattern truncates. -/
theorem extractLsb'_ofInt {w k : Nat} (h : 8 * k + 8 ≤ w) (v : Int) :
    (BitVec.ofInt w v).extractLsb' (8 * k) 8 = intByte v k := by
  obtain ⟨r, rfl⟩ := Nat.exists_eq_add_of_le h
  have hpow : (2 : Int) ^ (8 * k + 8 + r) = 256 ^ k * (256 * 2 ^ r) := by
    rw [pow_add, pow_add, pow_mul, Int.mul_assoc]
    norm_num
  have hbyte : (256 : Int) ^ k ≠ 0 := by positivity
  have hpos : 0 ≤ v % (256 ^ k * (256 * 2 ^ r)) := Int.emod_nonneg _ (by positivity)
  have hdigit : 0 ≤ v / 256 ^ k % 256 := Int.emod_nonneg _ (by decide)
  apply BitVec.eq_of_toNat_eq
  rw [BitVec.extractLsb'_toNat, BitVec.toNat_ofInt, intByte, BitVec.toNat_ofInt, Nat.shiftRight_eq_div_pow, pow_mul]
  zify
  rw [hpow, show (2 : Int) ^ 8 = 256 by norm_num, Int.toNat_of_nonneg hpos, Int.toNat_of_nonneg hdigit]
  exact emod_ediv_emod_256 hbyte v _

theorem le16_eq (v : Int) : le16 v = [intByte v 0, intByte v 1] := by
  rw [← extractLsb'_ofInt (w := 16) (by decide), ← extractLsb'_ofInt (w := 16) (by decide)]
  rfl

theorem le32_eq (v : Int) : le32 v = [intByte v 0, intByte v 1, intByte v 2, intByte v 3] := by
  rw [← extractLsb'_ofInt (w := 32) (by decide), ← extractLsb'_ofInt (w := 32) (by decide),
    ← extractLsb'_ofInt (w := 32) (by decide), ← extractLsb'_ofInt (w := 32) (by decide)]
  rfl

/-! ### The payloads -/

/-- The wire carries the same 32 bits with or without the position's wrap (R12, R421). -/
theorem le32_position (s : State) : le32 (position s) = le32 (s.hall.odo * s.cfg.distPerCycle) :=
  congrArg bytes32 BitVec.ofInt_toInt

/-- No response has more than MAX_PAYLOAD bytes (R121). -/
theorem rspPayload_length_le (r : Option RspName) (s : State) : (rspPayload r s).length ≤ maxPayload := by
  cases r with
  | none => exact Nat.zero_le _
  | some n => cases n <;> simp [rspPayload, le16_eq, le32_eq, bytes16, maxPayload]

/-- The status byte, bit by bit from the low end (R137). -/
theorem statusByte_getLsbD (s : State) (i : Nat) :
    (statusByte s).getLsbD i =
      if i < 1 then (BitVec.ofBool s.safety.enable).getLsbD i
      else if i < 2 then (BitVec.ofBool s.safety.estop).getLsbD (i - 1)
      else if i < 3 then (BitVec.ofBool s.ports.overcurrent).getLsbD (i - 2)
      else if i < 4 then (BitVec.ofBool s.safety.wdtExpired).getLsbD (i - 3)
      else if i < 6 then s.ctrl.mode.code.getLsbD (i - 4)
      else if i < 7 then (BitVec.ofBool s.ctrl.restartPending).getLsbD (i - 6)
      else (BitVec.ofBool s.hall.sectorValid).getLsbD (i - 7) := by
  change BitVec.getLsbD (w := 1 + 1 + 2 + 1 + 1 + 1 + 1) _ i = _
  simp only [statusByte, BitVec.getLsbD_append]
  grind

/-- A mode's encoding has bit 0 in STEPPER and bit 1 in RUNNING (R140). -/
theorem Mode.code_getElem (m : Mode) :
    m.code[0] = decide (m = .stepper) ∧ m.code[1] = decide (m = .running) := by
  cases m <;> decide

end Sys2Proof.Machine
end

section
/-! SUPPORT. What a reply appends (45_command_dispatcher.md R420 to R432): the frame's layout, the payload of each
response, and the operation of a response as the reply that its code asks for. -/

namespace Sys2Proof.Machine

/-- Header, payload, CRC low byte first, EOM (R120, R430). -/
theorem replyFrame_eq (cfg : Config) (seq : BitVec 4) (cid rid : Byte) (pl : List Byte) :
    replyFrame cfg seq cid rid pl =
      let h := [0x2F#8, BitVec.ofNat 8 pl.length, seq ++ cfg.replyDest, cid, rid] ++ pl
      h ++ [(crc16 h).extractLsb' 0 8, (crc16 h).extractLsb' 8 8, 0x0A#8] :=
  List.append_assoc _ _ _

/-- A reply changes `tx` only (R430). -/
theorem sendReply_eq (r : Option RspName) (seq : BitVec 4) (cid rid : Byte) (s : State) :
    sendReply r seq cid rid s = { s with tx := s.tx ++ replyFrame s.cfg seq cid rid (rspPayload r s) } := rfl

/-- A response other than NOR sends the reply that its RSP_CODE entry asks for (R142). -/
theorem opUpdate_toInstr_response {n : RspName} (hn : n ≠ .nor) (seq : BitVec 4) (cid : Byte) (s : State) :
    opUpdate (n.toInstr seq cid) s = sendReply (some n) seq cid (s.cfg.rspCode.code n) s := by
  cases n with
  | nor => exact absurd rfl hn
  | _ => rfl

/-- In a legal configuration only rspId 0 asks for NOR (R131). -/
theorem lookup_eq_nor_iff {cfg : Config} (h : cfg.Legal) {rid : Byte} :
    cfg.rspCode.lookup rid = some .nor ↔ rid = 0#8 := by
  rw [RspCode.lookup_eq_some_iff h.rspNodup, RspCode.code, h.rspNor]

/-- The operation that a rspId other than NOR stands for is its reply (R420, R430). -/
theorem opUpdate_decodeResponse {s : State} (h : s.cfg.Legal) {rid : Byte} (hrid : rid ≠ 0#8) (seq : BitVec 4)
    (cid : Byte) : opUpdate (decodeResponse s.cfg.rspCode rid seq cid) s = reply seq cid rid s := by
  rw [decodeResponse_eq, reply]
  cases hlookup : s.cfg.rspCode.lookup rid with
  | none => rfl
  | some n =>
    have hn : n ≠ .nor := by
      rintro rfl
      exact hrid ((lookup_eq_nor_iff h).mp hlookup)
    rw [(RspCode.lookup_eq_some_iff h.rspNodup).mp hlookup]
    exact opUpdate_toInstr_response hn seq cid s

theorem decodeResponse_ne_reset (c : RspCode) (rid : Byte) (seq : BitVec 4) (cid : Byte) :
    decodeResponse c rid seq cid ≠ .reset := by
  rw [decodeResponse_eq]
  cases c.lookup rid with
  | none => nofun
  | some n => cases n <;> nofun

theorem exec_reply {s : State} (h : s.Admitted) (seq : BitVec 4) (cid rid : Byte) :
    exec (.reply seq cid rid) s = .next (reply seq cid rid s) := exec_of_admitted (i := .reply seq cid rid) nofun h

/-- Settles O52: a reply appends its frame, as the response's operation does; the layout is the frame's own. -/
theorem replyBuildsOneFrame : Obligations.ReplyBuildsOneFrame := by
  refine ⟨fun seq cid rid s h => ⟨fun hrid => ⟨exec_reply h seq cid rid, rspPayload_length_le _ s, ?_⟩,
    _, exec_reply h seq cid rid⟩, replyFrame_eq⟩
  rw [exec_reply h, exec_of_admitted (decodeResponse_ne_reset _ _ _ _) h, opUpdate_decodeResponse h.1 hrid]

/-- Settles O53: a register's two bytes are those of its value; a level's or a pattern's are its own. -/
theorem twoByteRepliesReadTheirRegister : Obligations.TwoByteRepliesReadTheirRegister := by
  intro seq cid s h sent
  have hle16 (v : Int) : le16 v = [BitVec.ofInt 8 v, BitVec.ofInt 8 (v / 256)] := by simp [le16_eq]
  refine ⟨?_, ?_, exec_of_admitted (i := .rspBattery seq cid) nofun h,
    exec_of_admitted (i := .rspCurrent seq cid) nofun h, exec_of_admitted (i := .rspWatchdog seq cid) nofun h⟩
  · rw [exec_of_admitted (i := .rspSpeed seq cid) nofun h, opUpdate, sendReply_eq, rspPayload, hle16]
  · rw [exec_of_admitted (i := .rspPwm seq cid) nofun h, opUpdate, sendReply_eq, rspPayload, hle16]

/-- Settles O54: the bytes of the position are those of the unwrapped product. -/
theorem positionAndPidfReplies : Obligations.PositionAndPidfReplies := by
  intro seq cid s h byte pos
  constructor
  · rw [exec_of_admitted (i := .rspPosition seq cid) nofun h, opUpdate, sendReply_eq, rspPayload, le32_position,
      le32_eq]
    rfl
  · rw [exec_of_admitted (i := .rspPidf seq cid) nofun h, opUpdate, sendReply_eq, rspPayload, le16_eq, le16_eq,
      le16_eq]
    rfl

/-- Settles O55: the last byte is the status byte. -/
theorem telemetryReplyPacksTheStatusByte : Obligations.TelemetryReplyPacksTheStatusByte := by
  intro seq cid s h byte pos
  obtain ⟨hstepper, hrunning⟩ := s.ctrl.mode.code_getElem
  refine ⟨statusByte s, ?_, ?_⟩
  · rw [exec_of_admitted (i := .rspTelemetry seq cid) nofun h, opUpdate, sendReply_eq, rspPayload, le32_position,
      le32_eq, le16_eq, le16_eq]
    rfl
  · simp only [statusByte_getLsbD]
    simp [hstepper, hrunning]

end Sys2Proof.Machine
end

section
/-! SUPPORT. The commands as operations (45_command_dispatcher.md R401 to R409): what each does with its payload, and
the operation that a cmdId and a payload stand for as the command which DISPATCH runs. -/

namespace Sys2Proof.Machine

/-! ### Each command on its payload -/

theorem cmdPow_pair (b0 b1 : Byte) (rest : List Byte) (s : State) :
    cmdPow (b0 :: b1 :: rest) s = setPower (b1 ++ b0 : Half).toInt s := if_pos (by simp)

theorem cmdSpe_pair (b0 b1 : Byte) (rest : List Byte) (s : State) :
    cmdSpe (b0 :: b1 :: rest) s = setSpeed (b1 ++ b0 : Half).toInt s := if_pos (by simp)

theorem cmdDog_pair (b0 b1 : Byte) (rest : List Byte) (s : State) :
    cmdDog (b0 :: b1 :: rest) s =
      { s with conf := { s.conf with wdtInterval := b1 ++ b0 }, safety := { s.safety with wdtCnt := b1 ++ b0 } } :=
  if_pos (by simp)

theorem cmdMod_triple (m b0 b1 : Byte) (rest : List Byte) (s : State) :
    cmdMod (m :: b0 :: b1 :: rest) s =
      if m.toNat ≤ 1 then
        { s with conf := { s.conf with
            commMode := if m = 0#8 then .block else .sine, stepThresh := b1 ++ b0 } }
      else s := by
  have hlen : 3 ≤ (m :: b0 :: b1 :: rest).length := by simp
  simp only [cmdMod, hlen, true_and]
  rfl

/-- A payload that does not meet its command's condition has no effect (R409, R411). -/
theorem runCommand_of_not_accepts {n : CmdName} {pl : List Byte} (h : n.accepts pl = false) (s : State) :
    runCommand (some n) pl s = s := by
  cases n with
  | ena | dis | res | xxx => simp [CmdName.accepts] at h
  | pow | dog | spe => exact if_neg (of_decide_eq_false h)
  | mod => exact if_neg (by simpa [CmdName.accepts, plByte] using h)

/-- DISPATCH may test the cmdId alone, since each command tests its payload (R400, R409). -/
theorem runCommand_select (c : CmdCode) (cid : Byte) (pl : List Byte) (s : State) :
    runCommand (c.select cid pl) pl s = runCommand (c.lookup cid) pl s := by
  cases hlookup : c.lookup cid with
  | none => simp [CmdCode.select, hlookup]
  | some n =>
    cases hpl : n.accepts pl with
    | true => simp [CmdCode.select, hlookup, hpl]
    | false =>
      rw [runCommand_of_not_accepts hpl]
      simp [CmdCode.select, hlookup, hpl, runCommand]

/-! ### The operation of a command -/

theorem opUpdate_toInstr_command (n : CmdName) (pl : List Byte) (s : State) :
    opUpdate (n.toInstr pl) s = runCommand (some n) pl s := by
  cases n <;> rfl

theorem CmdName.toInstr_ne_reset (n : CmdName) (pl : List Byte) : n.toInstr pl ≠ .reset := by
  cases n <;> nofun

theorem exec_toInstr_of_not_accepts {n : CmdName} {pl : List Byte} (hpl : n.accepts pl = false) {s : State}
    (h : s.Admitted) : exec (n.toInstr pl) s = .next s := by
  rw [exec_of_admitted (n.toInstr_ne_reset pl) h, opUpdate_toInstr_command, runCommand_of_not_accepts hpl]

/-- The operation that a cmdId and a payload stand for is the command that DISPATCH runs for them (R138, R400). -/
theorem exec_decodeCommand {s : State} (h : s.Admitted) (c : CmdCode) (cid : Byte) (pl : List Byte) :
    exec (decodeCommand c cid pl) s = .next (runCommand (c.lookup cid) pl s) := by
  rw [decodeCommand_eq, ← runCommand_select]
  cases c.select cid pl with
  | none => exact exec_of_admitted (i := .unknownCmd cid pl) nofun h
  | some n =>
    rw [← opUpdate_toInstr_command]
    exact exec_of_admitted (n.toInstr_ne_reset pl) h

/-! ### The statements -/

/-- Settles O45: each of the two operations is one register update. -/
theorem disAndResClearOneRegister : Obligations.DisAndResClearOneRegister :=
  fun pl _ h => ⟨exec_of_admitted (i := .dis pl) nofun h, exec_of_admitted (i := .res pl) nofun h⟩

/-- Settles O46: the pair is the setters' operand; a shorter payload meets neither condition. -/
theorem powAndSpeCallTheSetters : Obligations.PowAndSpeCallTheSetters := by
  refine fun s h => ⟨fun b0 b1 rest => ?_, fun pl hpl => ?_⟩
  · have hpow := exec_of_admitted (i := .pow (b0 :: b1 :: rest)) nofun h
    have hspe := exec_of_admitted (i := .spe (b0 :: b1 :: rest)) nofun h
    refine ⟨?_, ?_, ⟨_, hpow⟩, _, hspe⟩
    · rw [hpow, opUpdate, cmdPow_pair, exec_of_admitted (i := .setPower _) nofun h, opUpdate]
    · rw [hspe, opUpdate, cmdSpe_pair, exec_of_admitted (i := .setSpeed _) nofun h, opUpdate]
  · have hshort : ¬ 2 ≤ pl.length := Nat.not_le_of_lt hpl
    exact ⟨exec_toInstr_of_not_accepts (n := .pow) (decide_eq_false hshort) h,
      exec_toInstr_of_not_accepts (n := .spe) (decide_eq_false hshort) h⟩

/-- Settles O47: the pair is written to both registers. -/
theorem dogLoadsTheWatchdog : Obligations.DogLoadsTheWatchdog := by
  refine fun s h => ⟨fun b0 b1 rest => ?_, fun pl hpl => ?_⟩
  · rw [exec_of_admitted (i := .dog _) nofun h, opUpdate, cmdDog_pair]
  · exact exec_toInstr_of_not_accepts (n := .dog) (decide_eq_false (Nat.not_le_of_lt hpl)) h

/-- Settles O48: the first byte of a long enough payload decides. -/
theorem modSetsWaveformAndThreshold : Obligations.ModSetsWaveformAndThreshold := by
  refine fun s h => ⟨fun m b0 b1 rest => ?_, fun pl hpl => ?_⟩
  · rw [exec_of_admitted (i := .mod _) nofun h, opUpdate, cmdMod_triple]
  · have hmod : CmdName.mod.accepts pl = false := by simp [CmdName.accepts, Nat.not_le_of_lt hpl]
    exact exec_toInstr_of_not_accepts hmod h

/-- Settles O49: zero power is not clamped. -/
theorem xxxLatchesTheEmergencyStop : Obligations.XxxLatchesTheEmergencyStop := by
  intro pl s h
  have hzero : clamp 0 (-pwmInMax) pwmInMax = 0 := clamp_of_within (by decide) (by decide)
  rw [exec_of_admitted (i := .xxx pl) nofun h, opUpdate, cmdXxx, setPower, setPowerRegs, hzero]

end Sys2Proof.Machine
end

section
/-! SUPPORT. DISPATCH as a sequence of operations (45_command_dispatcher.md R400, R410): the reload, the command that
the frame stands for, and the reply that it asks for. -/

namespace Sys2Proof.Machine

/-! ### ADDR_FILTER -/

theorem filtered_eq_true {cfg : Config} {f : Frame} {a : BitVec 4} (ha : cfg.addrFilter = some a) (hne : f.dest ≠ a) :
    filtered cfg f = true := by
  simp [filtered, ha, hne]

theorem filtered_eq_false {cfg : Config} {f : Frame}
    (h : cfg.addrFilter = none ∨ cfg.addrFilter = some f.dest) : filtered cfg f = false := by
  obtain h | h := h <;> simp [filtered, h]

/-! ### The sequence -/

/-- The reply that a frame asks for: none under rspId NOR (R400). -/
abbrev replyRequest (f : Frame) : List Instr := if f.rid = 0#8 then [] else [.reply f.seq f.cid f.rid]

theorem State.Admitted.reload {s : State} (h : s.Admitted) : (reload s).Admitted := h

theorem State.Admitted.runCommand {s : State} (h : s.Admitted) (c : Option CmdName) (pl : List Byte) :
    (runCommand c pl s).Admitted :=
  runCommand_induct (P := State.Admitted) h h h (fun _ => h) (fun _ => h) (fun _ _ => h) h (fun _ => h) h c pl

/-- Commands and the reload send nothing (R44). -/
theorem runCommand_tx (c : Option CmdName) (pl : List Byte) (s : State) : (runCommand c pl s).tx = s.tx :=
  runCommand_induct (P := fun t => t.tx = s.tx) rfl rfl rfl (fun _ => rfl) (fun _ => rfl) (fun _ _ => rfl) rfl
    (fun _ => rfl) rfl c pl

/-- An unfiltered frame runs its command on the reloaded state, then the reply that it asks for (R400). -/
theorem exec_dispatch {f : Frame} {s : State} (h : s.Admitted) (hf : filtered s.cfg f = false) :
    exec (.dispatch f) s =
      execAll (replyRequest f) (runCommand (s.cfg.cmdCode.lookup f.cid) f.payload (reload s)) := by
  have hcommand := h.reload.runCommand (s.cfg.cmdCode.lookup f.cid) f.payload
  rw [exec_of_admitted (i := .dispatch f) nofun h, opUpdate]
  by_cases hr : f.rid = 0#8
  · rw [dispatch_quiet hf (hr.trans h.1.rspNor.symm), replyRequest, if_pos hr, execAll]
  · rw [dispatch_reply hf (h.1.rspNor ▸ hr), replyRequest, if_neg hr,
      execAll_cons_of_next (exec_reply hcommand _ _ _), execAll]

/-- A frame without a reply is its command on the reloaded state. -/
theorem exec_dispatch_silent {f : Frame} {s : State} (h : s.Admitted) (hfilter : s.cfg.addrFilter = none)
    (hr : f.rid = 0#8) :
    exec (.dispatch f) s = .next (runCommand (s.cfg.cmdCode.lookup f.cid) f.payload (reload s)) := by
  rw [exec_dispatch h (filtered_eq_false (.inl hfilter)), replyRequest, if_pos hr, execAll]

/-! ### The statements -/

/-- Settles O43: the command that DISPATCH runs is the operation of the frame's cmdId and payload. -/
theorem dispatchRunsReloadCommandAndReply : Obligations.DispatchRunsReloadCommandAndReply := by
  refine fun f s h => ⟨fun a ha hne => ?_, fun hfilter => ⟨?_, _, exec_of_admitted (i := .dispatch f) nofun h⟩⟩
  · rw [exec_of_admitted (i := .dispatch f) nofun h, opUpdate, dispatch_filtered (filtered_eq_true ha hne)]
  · rw [exec_dispatch h (filtered_eq_false hfilter)]
    exact (execAll_cons_of_next (exec_decodeCommand h.reload _ f.cid f.payload) _).symm

/-- Settles O44: cmdId 3 is ENA in every legal CMD_CODE (R130). -/
theorem enaEnablesAndRearms : Obligations.EnaEnablesAndRearms := by
  refine ⟨fun pl s h => exec_of_admitted (i := .ena pl) nofun h, fun f s h hfilter hcid hr => ?_⟩
  have hena : s.cfg.cmdCode.lookup f.cid = some .ena :=
    (CmdCode.lookup_eq_some_iff h.1.cmdNodup).mpr (hcid.trans h.1.cmdEna.symm)
  rw [exec_dispatch_silent h hfilter hr, hena]
  rfl

/-- Settles O51: where no command is selected, the one that DISPATCH runs has no effect. -/
theorem unknownCommandOnlyReloads : Obligations.UnknownCommandOnlyReloads := by
  refine ⟨fun cid pl s h => exec_of_admitted (i := .unknownCmd cid pl) nofun h, fun f s h hfilter hselect => ?_⟩
  rw [exec_dispatch h (filtered_eq_false (.inl hfilter)), ← runCommand_select, hselect]
  rfl

/-- Settles O56: rspId 0 is NOR, whose payload is empty, and DISPATCH asks for no reply to it. -/
theorem norIsSilentAndUnknownResponseIsEmpty : Obligations.NorIsSilentAndUnknownResponseIsEmpty := by
  intro seq cid rid s h
  have hnor : s.cfg.rspCode.lookup 0#8 = some .nor := (lookup_eq_nor_iff h.1).mpr rfl
  refine ⟨exec_of_admitted (i := .rspNor seq cid) nofun h, ?_,
    exec_of_admitted (i := .rspUnknown seq cid rid) nofun h,
    fun f hfilter hr => ⟨_, exec_dispatch_silent h hfilter hr, runCommand_tx _ _ _⟩⟩
  rw [exec_reply h, reply, hnor, sendReply_eq, rspPayload]

end Sys2Proof.Machine
end

section
/-! SUPPORT. The strobes of a port sample (46_top_level_events.md R470): which are asserted, which one a step takes and
what is left after it, and the instant in which RESET is asserted with others. -/

namespace Sys2Proof.Machine

/-! ### The strobes of a sample -/

/-- The level of a strobe's port (R30). `mem_pendingStrobes` ties it to `pendingStrobes`. -/
def Strobe.asserted (q : Ports) : Strobe → Bool
  | .ctrlTick => q.ctrlTick
  | .rxValid => q.rxValid
  | .wdtTick => q.wdtTick

/-- The transaction that a strobe starts, with the levels it reads (R451, R460, R465). `transaction_onlyStrobe` ties it
to `Ports.transaction`. -/
def Strobe.transaction (q : Ports) : Strobe → Instr
  | .ctrlTick => .ctrlTick q.hall q.overcurrent
  | .rxValid => .rxByte q.rxByte q.vbat q.ibus
  | .wdtTick => .wdtTick

theorem transaction_onlyStrobe (q : Ports) (k : Strobe) :
    (onlyStrobe q k).transaction = .ok (k.transaction q) := by
  cases k <;> rfl

theorem pendingStrobes_eq_filter (q : Ports) :
    pendingStrobes q = [Strobe.ctrlTick, .rxValid, .wdtTick].filter (Strobe.asserted q) := by
  have hcons (c : Bool) (k : Strobe) (ks : List Strobe) :
      (if c then [k] else []) ++ ks = if c then k :: ks else ks := by cases c <;> rfl
  simp only [pendingStrobes, List.append_assoc]
  simp only [hcons, List.filter_cons, List.filter_nil, Strobe.asserted]
  rfl

theorem mem_pendingStrobes {q : Ports} {k : Strobe} : k ∈ pendingStrobes q ↔ k.asserted q = true := by
  rw [pendingStrobes_eq_filter, List.mem_filter]
  cases k <;> simp

theorem pendingStrobes_eq_nil_iff {q : Ports} :
    pendingStrobes q = [] ↔ q.ctrlTick = false ∧ q.rxValid = false ∧ q.wdtTick = false := by
  simp [pendingStrobes_eq_filter, Strobe.asserted]

theorem idlePorts_iff {q : Ports} : idlePorts q = true ↔ q.rst = false ∧ pendingStrobes q = [] := by
  simp [idlePorts]

theorem asserted_takeStrobe (q : Ports) (k j : Strobe) : j.asserted (takeStrobe q k) = (j != k && j.asserted q) := by
  cases k <;> cases j <;> simp [takeStrobe, Strobe.asserted]

/-- A strobe that has been taken is the one no longer pending. -/
theorem pendingStrobes_takeStrobe (q : Ports) (k : Strobe) :
    pendingStrobes (takeStrobe q k) = (pendingStrobes q).erase k := by
  have hnodup : (pendingStrobes q).Nodup := by
    rw [pendingStrobes_eq_filter]
    exact List.Nodup.filter _ (by decide)
  rw [hnodup.erase_eq_filter, pendingStrobes_eq_filter, pendingStrobes_eq_filter, List.filter_filter]
  exact congrArg (List.filter · _) (funext fun j => asserted_takeStrobe q k j)

@[simp] theorem takeStrobe_rst (q : Ports) (k : Strobe) : (takeStrobe q k).rst = q.rst := by cases k <;> rfl

@[simp] theorem transaction_takeStrobe (q : Ports) (k j : Strobe) :
    k.transaction (takeStrobe q j) = k.transaction q := by
  cases k <;> cases j <;> rfl

/-! ### The strobe that is taken -/

theorem takeNext_reset {s : State} (hpending : pendingStrobes s.ports = []) (hrst : s.ports.rst = true) :
    takeNext s = some ({ dropStrobes s.ports with rst := true }, { s with ports := dropStrobes s.ports }) := by
  simp [takeNext, hpending, hrst]

/-- Everything `takeNext` can do: nothing at idle ports, RESET where it is alone, else one of the other asserted
strobes, which one being free (R470). -/
theorem takeNext_cases (s : State) :
    (idlePorts s.ports = true ∧ takeNext s = none) ∨
    (pendingStrobes s.ports = [] ∧ s.ports.rst = true ∧
      takeNext s = some ({ dropStrobes s.ports with rst := true }, { s with ports := dropStrobes s.ports })) ∨
    ∃ k ∈ pendingStrobes s.ports, ∃ n,
      takeNext s = some (onlyStrobe s.ports k, { s with ports := takeStrobe s.ports k, orderCount := n }) := by
  match hpending : pendingStrobes s.ports with
  | [] =>
    cases hrst : s.ports.rst with
    | false =>
      have hidle := idlePorts_iff.mpr ⟨hrst, hpending⟩
      exact .inl ⟨hidle, takeNext_of_idle hidle⟩
    | true => exact .inr (.inl ⟨rfl, rfl, takeNext_reset hpending hrst⟩)
  | [k] => exact .inr (.inr ⟨k, by simp, s.orderCount, by simp [takeNext, hpending]⟩)
  | k :: j :: ks =>
    have hlt : Config.strobeOrder s.orderCount % (k :: j :: ks).length < (k :: j :: ks).length :=
      Nat.mod_lt _ (by simp)
    refine .inr (.inr ⟨(k :: j :: ks)[_]'hlt, List.getElem_mem hlt, s.orderCount + 1, ?_⟩)
    simp only [takeNext, hpending, List.getD_eq_getElem _ _ hlt]

/-- Settles O2: what `takeNext` can do, and what the strobes of a sample are. -/
theorem oneStrobeIsTakenAndResetLast : Obligations.OneStrobeIsTakenAndResetLast := by
  refine ⟨fun s hasserted => ?_, fun q => ⟨?_, fun k => ?_, rfl, ?_⟩, fun s t p htake => ?_⟩
  · obtain ⟨hidle, -⟩ | ⟨-, -, htake⟩ | ⟨k, -, n, htake⟩ := takeNext_cases s
    · rw [idlePorts_iff, pendingStrobes_eq_nil_iff] at hidle
      simp [hidle] at hasserted
    · exact ⟨_, _, htake⟩
    · exact ⟨_, _, htake⟩
  · rw [idlePorts_iff, pendingStrobes_eq_nil_iff]
  · rw [mem_pendingStrobes]
    cases k <;> rfl
  · exact ⟨transaction_onlyStrobe q .ctrlTick, transaction_onlyStrobe q .rxValid,
      transaction_onlyStrobe q .wdtTick⟩
  · refine ⟨(takeNext_frame htake).1, ?_⟩
    obtain ⟨-, hnone⟩ | ⟨hpending, hrst, hreset⟩ | ⟨k, hk, n, hsome⟩ := takeNext_cases s
    · rw [hnone] at htake
      cases htake
    · rw [hreset] at htake
      cases htake
      exact .inr ⟨hpending, hrst, rfl, rfl⟩
    · rw [hsome] at htake
      cases htake
      exact .inl ⟨k, hk, rfl, rfl⟩

/-! ### RESET with other strobes -/

/-- While a strobe is asserted no sample arrives (log 1). -/
theorem arrive_of_rst {s : State} (h : s.ports.rst = true) : arrive s = s := by
  simp [arrive, idlePorts, h]

theorem run_succ_of_step {M : Host.Core} {s t : M.State} (h : M.step s = .next t) (k : Nat) :
    M.run (k + 1) s = M.run k t := by
  simp only [Host.Core.run, h]

theorem State.Inv.admitted {s : State} (h : s.Inv) : s.Admitted := ⟨h.legal, h.booted⟩

/-- A transaction that carries the levels of the ports leaves the ports as they are. -/
theorem opUpdate_transaction_ports (k : Strobe) (s : State) : (opUpdate (k.transaction s.ports) s).ports = s.ports := by
  cases k with
  | ctrlTick => rfl
  | rxValid => exact (congrArg State.ports (receiverWrites_rxParse s.ports.rxByte s).eq :)
  | wdtTick => exact (congrArg State.ports (wdtTick_frame s).1 :)

/-- Alone at the ports, RESET leaves the reset state (R450). -/
theorem step_reset {s : State} (h : s.Inv) (hrst : s.ports.rst = true) (hpending : pendingStrobes s.ports = []) :
    step s = .next (State.resetWith s.cfg (dropStrobes s.ports) s.inputs [] s.orderCount) := by
  have htake : takeNext (arrive s) =
      some ({ dropStrobes s.ports with rst := true }, { s with ports := dropStrobes s.ports }) := by
    rw [arrive_of_rst hrst, takeNext_reset hpending hrst]
  rw [step_takes_strobe h.noIssue htake rfl]
  refine (execReset_of (s := { s with ports := dropStrobes s.ports }) h.legal.1).trans ?_
  rw [doReset, h.noIssue]

/-- With RESET and others asserted, a step takes one of the others, and RESET stays asserted (R470). -/
theorem step_before_reset {s : State} (h : s.Inv) (hrst : s.ports.rst = true)
    (hpending : pendingStrobes s.ports ≠ []) :
    ∃ k ∈ pendingStrobes s.ports, ∃ t, step s = .next t ∧ t.Inv ∧ t.cfg = s.cfg ∧ t.inputs = s.inputs ∧
      t.ports = takeStrobe s.ports k := by
  obtain ⟨hidle, -⟩ | ⟨hnil, -⟩ | ⟨k, hk, n, htake⟩ := takeNext_cases s
  · exact absurd (idlePorts_iff.mp hidle).2 hpending
  · exact absurd hnil hpending
  · set u : State := { s with ports := takeStrobe s.ports k, orderCount := n }
    have hu : u.Inv := takeNext_inv h htake
    have hi : (onlyStrobe s.ports k).transaction = .ok (k.transaction u.ports) := by
      rw [transaction_onlyStrobe, transaction_takeStrobe]
    have hne : k.transaction u.ports ≠ .reset := by cases k <;> nofun
    have hkeeps := onlyAppends_opUpdate hne u
    refine ⟨k, hk, opUpdate (k.transaction u.ports) u, ?_, transaction_inv hu hi, hkeeps.cfg, hkeeps.inputs,
      opUpdate_transaction_ports k u⟩
    rw [step_takes_strobe h.noIssue (by rwa [arrive_of_rst hrst]) hi, exec_of_admitted hne hu.admitted]

/-- As many steps as strobes are asserted end in the reset state, by induction on the strobes other than RESET. -/
theorem run_to_reset (n : Nat) {s : State} (h : s.Inv) (hrst : s.ports.rst = true)
    (hn : (pendingStrobes s.ports).length = n) :
    ∃ m, Host.Core.run Sys2Proof.core (n + 1) s =
      .next (State.resetWith s.cfg (dropStrobes s.ports) s.inputs [] m) := by
  induction n generalizing s with
  | zero => exact ⟨s.orderCount, run_succ_of_step (step_reset h hrst (List.length_eq_zero_iff.mp hn)) 0⟩
  | succ n ih =>
    obtain ⟨k, hk, t, hstep, ht, hcfg, hinputs, hports⟩ :=
      step_before_reset h hrst (List.ne_nil_of_length_eq_add_one hn)
    have hlength : (pendingStrobes t.ports).length = n := by
      rw [hports, pendingStrobes_takeStrobe, List.length_erase_of_mem hk, hn, Nat.add_sub_cancel]
    obtain ⟨m, hrun⟩ := ih ht (by rw [hports, takeStrobe_rst, hrst]) hlength
    rw [hcfg, hinputs, hports, dropStrobes_takeStrobe] at hrun
    exact ⟨m, (run_succ_of_step hstep _).trans hrun⟩

/-- Settles O3: the strobes other than RESET are taken first, one by one, and RESET alone then leaves the reset
state. -/
theorem resetWithOtherStrobesLeavesTheResetState : Obligations.ResetWithOtherStrobesLeavesTheResetState := by
  intro s h hrst
  obtain ⟨m, hrun⟩ := run_to_reset _ h hrst rfl
  exact ⟨_, hrun, rfl⟩

end Sys2Proof.Machine
end

section
/-! SUPPORT. The transactions as operations one after the other (46_top_level_events.md R451, R460), and the watchdog
(R465, R466): one equation per case of its tick, and the ticks of an armed one. -/

namespace Sys2Proof.Machine

/-! ### CTRL_TICK and RX_BYTE -/

/-- Settles O21: each stage keeps the state admitted, so each completes and hands its registers to the next. -/
theorem ctrlTickRunsTheFourStages : Obligations.CtrlTickRunsTheFourStages := by
  intro c oc s h
  have htick : exec (.ctrlTick c oc) s = .next (ctrlTick c { s with ports := { s.ports with overcurrent := oc } }) :=
    exec_of_admitted (i := .ctrlTick c oc) nofun h
  refine ⟨?_, _, htick⟩
  set s0 : State := { s with ports := { s.ports with overcurrent := oc } }
  have hhall : exec (.hallStage c) s0 = .next (hallStage c s0) := exec_of_admitted (i := .hallStage c) nofun h
  set s1 := hallStage c s0
  have hspeed : exec .speedStage s1 = .next (speedStage s1) := exec_of_admitted (i := .speedStage) nofun h
  set s2 := speedStage s1
  have hctrl : exec .ctrlStage s2 = .next (ctrlStage s2) := exec_of_admitted (i := .ctrlStage) nofun h
  set s3 := ctrlStage s2
  have hsynth : exec .synthStage s3 = .next (synthStage s3) := exec_of_admitted (i := .synthStage) nofun h
  rw [htick, execAll_cons_of_next hhall, execAll_cons_of_next hspeed, execAll_cons_of_next hctrl,
    execAll_cons_of_next hsynth, execAll]
  rfl

/-- Settles O22: both operations are the parser's update. -/
theorem rxByteParsesOneByte : Obligations.RxByteParsesOneByte := by
  intro b vbat ibus s h
  have hbyte := exec_of_admitted (i := .rxByte b vbat ibus) nofun h
  have hparse {u : State} (hu : u.Admitted) := exec_of_admitted (i := .rxParse b) nofun hu
  have hlevels : { s with ports := { s.ports with vbat := vbat, ibus := ibus } }.Admitted := h
  exact ⟨hbyte.trans (hparse hlevels).symm, ⟨_, hbyte⟩, _, hparse h⟩

/-! ### EXPIRE -/

/-- SetPower(0): zero power is not clamped (R301). -/
theorem setPowerRegs_zero (r : CtrlRegs) :
    setPowerRegs 0 r =
      { r with
        mode := .openLoop, restartPending := false, setpoint := 0, lastSetpoint := 0, integral := 0, pTerm := 0
        iTerm := 0, fTerm := 0, pidOut := 0, stepCnt := 0, pwmInput := 0 } := by
  rw [setPowerRegs, clamp_of_within (by decide) (by decide)]

/-- Settles O50: after the two flags, EXPIRE is SetPower(0). -/
theorem expireDisablesAndForcesOpenLoop : Obligations.ExpireDisablesAndForcesOpenLoop := by
  intro s h
  rw [exec_of_admitted (i := .expire) nofun h, opUpdate, expire, setPower, setPowerRegs_zero]

/-! ### WDT_TICK -/

/-- The watchdog does nothing: off, expired, or without ticks left (R465). -/
abbrev WatchdogRests (s : State) : Prop :=
  s.conf.wdtInterval = 0#16 ∨ s.safety.wdtExpired = true ∨ s.safety.wdtCnt = 0#16

/-- The state with another watchdog count. -/
abbrev State.withTicks (s : State) (n : Half) : State := { s with safety := { s.safety with wdtCnt := n } }

theorem wdtTick_rests {s : State} (h : WatchdogRests s) : wdtTick s = s := by
  rw [WatchdogRests, ← or_assoc] at h
  simp only [wdtTick]
  split
  · rfl
  · rw [if_pos (h.resolve_left ‹_›)]

theorem wdtTick_runs {s : State} (h : ¬ WatchdogRests s) :
    wdtTick s =
      if s.safety.wdtCnt = 1#16 then expire (s.withTicks 0#16)
      else s.withTicks (BitVec.ofNat 16 (s.safety.wdtCnt.toNat - 1)) := by
  simp only [not_or] at h
  obtain ⟨hinterval, hexpired, hcnt⟩ := h
  have hlast : s.safety.wdtCnt - 1#16 = 0#16 ↔ s.safety.wdtCnt = 1#16 := by bv_omega
  have hless : s.safety.wdtCnt - 1#16 = BitVec.ofNat 16 (s.safety.wdtCnt.toNat - 1) := by bv_omega
  rw [wdtTick, if_neg (not_or.mpr ⟨hinterval, hexpired⟩), if_neg hcnt]
  simp only [hlast]
  split
  · rw [hlast.mpr ‹_›]
  · rw [hless]

/-- Settles O23: EXPIRE on the state whose count has reached 0 is the middle case. -/
theorem wdtTickCountsDownAndExpires : Obligations.WdtTickCountsDownAndExpires := by
  intro s h
  rw [exec_of_admitted (i := .wdtTick) nofun h, opUpdate]
  by_cases hrests : WatchdogRests s
  · rw [if_pos hrests, wdtTick_rests hrests]
  · rw [if_neg hrests, wdtTick_runs hrests]
    split
    · rw [expire, setPower, setPowerRegs_zero]
    · rfl

/-! ### The ticks of an armed watchdog -/

theorem wdtTick_admitted {s : State} (h : s.Admitted) : (wdtTick s).Admitted := by
  rw [(wdtTick_frame s).1]
  exact h

theorem execAll_replicate_wdtTick {s : State} (h : s.Admitted) (k : Nat) :
    execAll (List.replicate k .wdtTick) s = .next (wdtTick^[k] s) := by
  induction k generalizing s with
  | zero => rfl
  | succ k ih =>
    rw [List.replicate_succ, execAll_cons_of_next (exec_of_admitted (i := .wdtTick) nofun h)]
    exact ih (wdtTick_admitted h)

section
variable {s : State} (h : ¬ WatchdogRests s)
include h

theorem not_watchdogRests_withTicks {n : Half} (hn : n ≠ 0#16) : ¬ WatchdogRests (s.withTicks n) := by
  simp only [not_or] at h ⊢
  exact ⟨h.1, h.2.1, hn⟩

/-- Before its last tick an armed watchdog counts (R465). -/
theorem wdtTick_iterate_counts {k : Nat} (hk : k < s.safety.wdtCnt.toNat) :
    wdtTick^[k] s = s.withTicks (BitVec.ofNat 16 (s.safety.wdtCnt.toNat - k)) := by
  induction k with
  | zero => simp
  | succ k ih =>
    have hlt := s.safety.wdtCnt.isLt
    have htoNat : (BitVec.ofNat 16 (s.safety.wdtCnt.toNat - k)).toNat = s.safety.wdtCnt.toNat - k := by
      rw [BitVec.toNat_ofNat, Nat.mod_eq_of_lt (by omega)]
    have hticks : BitVec.ofNat 16 (s.safety.wdtCnt.toNat - k) ≠ 0#16 := by bv_omega
    have hmore : BitVec.ofNat 16 (s.safety.wdtCnt.toNat - k) ≠ 1#16 := by bv_omega
    rw [Function.iterate_succ_apply', ih (by omega), wdtTick_runs (not_watchdogRests_withTicks h hticks),
      if_neg hmore, htoNat, Nat.sub_sub]

/-- At its last tick it expires (R465, R466). -/
theorem wdtTick_iterate_expires : wdtTick^[s.safety.wdtCnt.toNat] s = expire (s.withTicks 0#16) := by
  have hpos : s.safety.wdtCnt.toNat ≠ 0 := by
    simp only [not_or] at h
    obtain ⟨-, -, hcnt⟩ := h
    bv_omega
  obtain ⟨n, hn⟩ := Nat.exists_eq_succ_of_ne_zero hpos
  rw [hn, Function.iterate_succ_apply', wdtTick_iterate_counts h (by omega), hn, Nat.succ_sub (le_refl n), Nat.sub_self,
    wdtTick_runs (not_watchdogRests_withTicks h (by decide)), if_pos rfl]

/-- After it the watchdog rests: it has expired once (R467). -/
theorem wdtTick_iterate_after {k : Nat} (hk : s.safety.wdtCnt.toNat ≤ k) :
    wdtTick^[k] s = expire (s.withTicks 0#16) := by
  have hrests : WatchdogRests (expire (s.withTicks 0#16)) := .inr (.inl rfl)
  obtain ⟨j, rfl⟩ := Nat.exists_eq_add_of_le' hk
  rw [Function.iterate_add_apply, wdtTick_iterate_expires h, Function.iterate_fixed (wdtTick_rests hrests)]

end

/-- Settles O24: the ticks are iterations of the tick's update, which counts, expires, and then rests. -/
theorem watchdogExpiresAfterItsTicks : Obligations.WatchdogExpiresAfterItsTicks := by
  intro s h hinterval hexpired hcnt
  have hruns : ¬ WatchdogRests s := by simp [WatchdogRests, hinterval, hexpired, hcnt]
  refine ⟨fun k hk => ?_, fun k hk => ?_⟩
  · rw [execAll_replicate_wdtTick h, wdtTick_iterate_counts hruns hk]
  · rw [execAll_replicate_wdtTick h, wdtTick_iterate_after hruns hk]
    exact (exec_of_admitted (i := .expire) (s := s.withTicks 0#16) nofun h).symm

end Sys2Proof.Machine
end

section
/-! SUPPORT. What can raise `enable` or clear `wdtExpired` (46_top_level_events.md R467, 60_exceptions.md R504, R506):
each operation leaves the output as disabled as it was, or is ENA or runs it. -/

namespace Sys2Proof.Machine

/-- `t` is no less disabled than `s`: `enable` has not been raised, nor `wdtExpired` cleared. -/
structure StaysDisabled (s t : State) : Prop where
  enable : s.safety.enable = false → t.safety.enable = false
  wdtExpired : s.safety.wdtExpired = true → t.safety.wdtExpired = true

/-- An update that writes neither flag. -/
theorem StaysDisabled.of_eq {s t : State} (henable : t.safety.enable = s.safety.enable)
    (hexpired : t.safety.wdtExpired = s.safety.wdtExpired) : StaysDisabled s t :=
  ⟨henable.trans, hexpired.trans⟩

theorem StaysDisabled.refl (s : State) : StaysDisabled s s := .of_eq rfl rfl

/-! ### The commands, the dispatcher and the parser -/

/-- Of the commands only ENA can restore the output (R401, R467). -/
theorem runCommand_staysDisabled {c : Option CmdName} (hc : c ≠ some .ena) (pl : List Byte) (s : State) :
    StaysDisabled s (runCommand c pl s) := by
  have hite {q : Prop} [Decidable q] {t : State} (ht : StaysDisabled s t) :
      StaysDisabled s (if q then t else s) := by
    split
    · exact ht
    · exact .refl s
  cases c with
  | none => exact .refl s
  | some c =>
    cases c with
    | ena => exact absurd rfl hc
    | dis | xxx => exact ⟨fun _ => rfl, id⟩
    | res => exact .of_eq rfl rfl
    | pow | dog | mod | spe => exact hite (.of_eq rfl rfl)

/-- DISPATCH leaves the flags to the command: the reload writes the count only, and a reply none of them (R400). -/
theorem dispatch_safety_cases (f : Frame) (s : State) :
    (dispatch f s).safety = s.safety ∨
      (dispatch f s).safety = (runCommand (s.cfg.cmdCode.lookup f.cid) f.payload (reload s)).safety := by
  cases hf : filtered s.cfg f with
  | true => exact .inl (by rw [dispatch_filtered hf])
  | false =>
    by_cases hr : f.rid = s.cfg.rspCode.nor
    · exact .inr (by rw [dispatch_quiet hf hr])
    · exact .inr (by rw [dispatch_reply hf hr, reply_safety])

/-- A byte that selects a command is its entry, in every CMD_CODE (R130). -/
theorem code_of_lookup {c : CmdCode} {b : Byte} {n : CmdName} (h : c.lookup b = some n) : b = c.code n := by
  rw [CmdCode.lookup_eq_findCode] at h
  simpa using List.find?_some h

theorem dispatch_staysDisabled_or (f : Frame) (s : State) :
    StaysDisabled s (dispatch f s) ∨ f.cid = s.cfg.cmdCode.ena := by
  obtain hkept | hcommand := dispatch_safety_cases f s
  · exact .inl (.of_eq (by rw [hkept]) (by rw [hkept]))
  · by_cases hena : s.cfg.cmdCode.lookup f.cid = some .ena
    · exact .inr (code_of_lookup hena)
    · obtain ⟨henable, hexpired⟩ := runCommand_staysDisabled hena f.payload (reload s)
      rw [← hcommand] at henable hexpired
      exact .inl ⟨henable, hexpired⟩

/-- RX_PARSE restores the output only by the frame that it completes (R366, R460). -/
theorem rxParse_staysDisabled_or (b : Byte) (s : State) :
    StaysDisabled s (rxParse b s) ∨
      ∃ p f, parseByte s.cfg b s.parser = (p, some f) ∧ f.cid = s.cfg.cmdCode.ena := by
  obtain ⟨p, -, hrx⟩ | ⟨p, f, hp, -, hrx⟩ := rxParse_cases b s
  · rw [hrx]
    exact .inl (.of_eq rfl rfl)
  · rw [hrx]
    obtain ⟨henable, hexpired⟩ | hcid := dispatch_staysDisabled_or f { s with parser := p }
    · exact .inl ⟨henable, hexpired⟩
    · exact .inr ⟨p, f, hp, hcid⟩

/-! ### The watchdog -/

/-- WDT_TICK writes neither flag, or expires the watchdog (R465, R466). -/
theorem wdtTick_staysDisabled (s : State) : StaysDisabled s (wdtTick s) := by
  obtain hs | ⟨-, hs⟩ | ⟨-, hs⟩ := wdtTick_cases s
  · rw [hs]
    exact .refl s
  · rw [hs]
    exact .of_eq rfl rfl
  · rw [hs]
    exact ⟨fun _ => rfl, fun _ => rfl⟩

/-- Settles O59: every operation other than ENA and RESET leaves the output disabled, or dispatches a frame that carries
ENA. -/
theorem onlyEnaRestoresTheOutput : Obligations.OnlyEnaRestoresTheOutput := by
  intro i s t h hi hrestored
  obtain rfl := exec_next h
  have hnot : ¬ StaysDisabled s (opUpdate i s) := by
    rintro ⟨henable, hexpired⟩
    obtain ⟨hoff, hon⟩ | ⟨hset, hcleared⟩ := hrestored
    · exact Bool.false_ne_true ((henable hoff).symm.trans hon)
    · exact Bool.false_ne_true (hcleared.symm.trans (hexpired hset))
  cases i with
  | reset => exact absurd rfl hi
  | ena pl => exact .inl ⟨pl, rfl⟩
  | dispatch f => exact .inr ⟨f, (dispatch_staysDisabled_or f s).resolve_left hnot, .inl rfl⟩
  | rxParse b =>
    obtain ⟨p, f, hp, hcid⟩ := (rxParse_staysDisabled_or b s).resolve_left hnot
    exact .inr ⟨f, hcid, .inr ⟨b, p, hp, .inl rfl⟩⟩
  | rxByte b vbat ibus =>
    obtain ⟨p, f, hp, hcid⟩ :=
      (rxParse_staysDisabled_or b { s with ports := { s.ports with vbat := vbat, ibus := ibus } }).resolve_left
        fun ⟨henable, hexpired⟩ => hnot ⟨henable, hexpired⟩
    exact .inr ⟨f, hcid, .inr ⟨b, p, hp, .inr ⟨vbat, ibus, rfl⟩⟩⟩
  | wdtTick => exact absurd (wdtTick_staysDisabled s) hnot
  | expire => exact absurd ⟨fun _ => rfl, fun _ => rfl⟩ hnot
  | dis pl => exact absurd (runCommand_staysDisabled (c := some .dis) nofun pl s) hnot
  | pow pl => exact absurd (runCommand_staysDisabled (c := some .pow) nofun pl s) hnot
  | dog pl => exact absurd (runCommand_staysDisabled (c := some .dog) nofun pl s) hnot
  | mod pl => exact absurd (runCommand_staysDisabled (c := some .mod) nofun pl s) hnot
  | spe pl => exact absurd (runCommand_staysDisabled (c := some .spe) nofun pl s) hnot
  | xxx pl => exact absurd (runCommand_staysDisabled (c := some .xxx) nofun pl s) hnot
  | ctrlTick | hallStage | hallDecode | speedStage | speedUpdate | ctrlStage | stepperStep | pidfEval | pwmFilter
  | synthStage | blockCommutate | sineCommutate | pulseClamp | setPower | setSpeed | crc16 | frameCheck | reply | res
  | unknownCmd | rspNor | rspSpeed | rspPosition | rspBattery | rspCurrent | rspPwm | rspWatchdog | rspPidf
  | rspTelemetry | rspUnknown => exact absurd (.of_eq rfl rfl) hnot

end Sys2Proof.Machine
end

section
/-! SUPPORT. Where the model stops and where it does not (60_exceptions.md R500, R517): the outcome of every operation
under the guard, the operation of a step without an issued word, and the HALL_TABLEs that are not refused. -/

namespace Sys2Proof.Machine

/-! ### The outcome of an operation -/

/-- Where R517 refuses nothing, every operation answers its update (R500). -/
theorem exec_of_ready {s : State} (h : s.Ready) (i : Instr) : exec i s = .next (opUpdate i s) := by
  by_cases hi : i = .reset
  · subst hi
    exact execReset_of h.1
  · exact (exec_of_ne_reset hi s).trans (runUpdate_ready h _)

/-- A configuration that R517 lists refuses every operation, RESET too, by the flaw's name. -/
theorem exec_of_flaw {s : State} {e : ConfigFlaw} (h : s.cfg.check = some e) (i : Instr) :
    exec i s = .refused (.configuration e) := by
  by_cases hi : i = .reset
  · subst hi
    simp [exec, execReset, h]
  · exact (exec_of_ne_reset hi s).trans (runUpdate_flaw h _)

/-- Before the first RESET every other operation is refused (R46, R517). -/
theorem exec_beforeReset {s : State} (hcheck : s.cfg.check = none) (hbooted : s.booted = false) {i : Instr}
    (hi : i ≠ .reset) : exec i s = .refused .beforeReset := by
  rw [exec_of_ne_reset hi]
  simp [runUpdate, guarded, hcheck, hbooted]

/-! ### A step without an issued word -/

theorem arrive_ready {s : State} (h : s.Ready) : (arrive s).Ready := by
  obtain hs | ⟨-, p, rest, -, hs⟩ := arrive_cases s
  · rwa [hs]
  · rw [hs]
    exact h

theorem takeNext_ready {s t : State} {p : Ports} (h : s.Ready) (htake : takeNext s = some (p, t)) : t.Ready := by
  rw [(takeNext_frame htake).1]
  exact h

/-- The sample that is taken has exactly one strobe, so it starts a transaction (R470). -/
theorem takeNext_transaction {s t : State} {p : Ports} (htake : takeNext s = some (p, t)) :
    ∃ i, p.transaction = .ok i := by
  obtain ⟨-, hnone⟩ | ⟨-, -, hreset⟩ | ⟨k, -, n, hstrobe⟩ := takeNext_cases s
  · rw [hnone] at htake
    cases htake
  · rw [hreset] at htake
    cases htake
    exact ⟨.reset, rfl⟩
  · rw [hstrobe] at htake
    cases htake
    exact ⟨_, transaction_onlyStrobe s.ports k⟩

/-- With nothing issued, a step completes: it runs the transaction of a strobe, or only a sample's levels arrive. -/
theorem step_completes {s : State} (h : s.Ready) (hissue : s.issue = []) : ∃ t, step s = .next t := by
  cases htake : takeNext (arrive s) with
  | none => exact ⟨_, step_takes_nothing hissue htake⟩
  | some taken =>
    obtain ⟨p, u⟩ := taken
    obtain ⟨i, hi⟩ := takeNext_transaction htake
    exact ⟨_, (step_takes_strobe hissue htake hi).trans (exec_of_ready (takeNext_ready (arrive_ready h) htake) i)⟩

/-! ### The stages that divide -/

/-- STEPPER_STEP writes the tick counter and the angle, whatever its period is (R310, log 9). -/
theorem stepperStepRegs_frame (cfg : Config) (r : CtrlRegs) :
    stepperStepRegs cfg r =
      { r with stepCnt := (stepperStepRegs cfg r).stepCnt, angleY := (stepperStepRegs cfg r).angleY } := by
  simp only [stepperStepRegs]
  split <;> rfl

/-- Settles O8: a ready state answers the update of every operation, and the ports offer a step only operations. -/
theorem everyOperationIsTotal : Obligations.EveryOperationIsTotal := by
  refine ⟨fun s i h => ⟨_, exec_of_ready h i⟩, fun s h => ⟨_, execReset_of h⟩, fun s => step_completes,
    fun s h => ⟨⟨_, exec_of_ready h .speedStage, rfl⟩, _, exec_of_ready h .stepperStep, ?_⟩⟩
  exact congrArg (fun r => { s with ctrl := r }) (stepperStepRegs_frame s.cfg s.ctrl)

end Sys2Proof.Machine

namespace Sys2Proof

/-! ### The configurations that are not refused -/

/-- Entries below their number are pairwise different exactly when each number below it is an entry. -/
theorem nodup_lt_length_iff (l : List Nat) : ((∀ v ∈ l, v < l.length) ∧ l.Nodup) ↔ ∀ k < l.length, k ∈ l := by
  constructor
  · rintro ⟨hlt, hnodup⟩ k hk
    have hsub : l ⊆ List.range l.length := fun v hv => List.mem_range.mpr (hlt v hv)
    have hperm : l.Perm (List.range l.length) :=
      (hnodup.subperm hsub).perm_of_length_le List.length_range.le
    exact hperm.mem_iff.mpr (List.mem_range.mpr hk)
  · intro hall
    have hsub : List.range l.length ⊆ l := fun k hk => hall k (List.mem_range.mp hk)
    have hperm : (List.range l.length).Perm l :=
      (List.nodup_range.subperm hsub).perm_of_length_le List.length_range.ge
    exact ⟨fun v hv => List.mem_range.mp (hperm.mem_iff.mpr hv), hperm.nodup_iff.mp List.nodup_range⟩

/-- The members of a list are the entries strictly between an entry put before it and one put after it. -/
theorem mem_iff_getElem?_between {α : Type} (x y : α) (l : List α) (v : α) :
    v ∈ l ↔ ∃ i, 1 ≤ i ∧ i ≤ l.length ∧ (x :: (l ++ [y]))[i]? = some v := by
  have hplace {j : Nat} (hj : j < l.length) : (x :: (l ++ [y]))[j + 1]? = l[j]? := by
    rw [List.getElem?_cons_succ, List.getElem?_append_left hj]
  rw [List.mem_iff_getElem?]
  constructor
  · rintro ⟨j, hv⟩
    obtain ⟨hj, -⟩ := List.getElem?_eq_some_iff.mp hv
    exact ⟨j + 1, by omega, hj, (hplace hj).trans hv⟩
  · rintro ⟨i, hpos, hle, hv⟩
    obtain ⟨j, rfl⟩ := Nat.exists_eq_add_of_le' hpos
    exact ⟨j, (hplace hle).symm.trans hv⟩

/-- A HALL_TABLE is legal exactly when it has NOFUNC at 000 and 111 and every sector at one of the codes between them
(R101, R201). -/
theorem Config.hallTableOk_iff (t : List Nat) : Config.hallTableOk t = true ↔
    t.length = 8 ∧ t[0]? = some noFunc ∧ t[7]? = some noFunc ∧ ∀ k < 6, ∃ c, 1 ≤ c ∧ c ≤ 6 ∧ t[c]? = some k := by
  unfold Config.hallTableOk
  split
  next a b c d e f g h =>
    have hentry (k : Nat) :
        (∃ i, 1 ≤ i ∧ i ≤ 6 ∧ [a, b, c, d, e, f, g, h][i]? = some k) ↔ k ∈ [b, c, d, e, f, g] :=
      (mem_iff_getElem?_between a h [b, c, d, e, f, g] k).symm
    have hcover := nodup_lt_length_iff [b, c, d, e, f, g]
    simp only [List.length_cons, List.length_nil, Nat.zero_add, Nat.reduceAdd] at hcover
    simp only [hentry, ← hcover]
    simp [and_assoc]
  next hne =>
    refine ⟨nofun, fun ⟨hlen, _⟩ => ?_⟩
    match t, hlen with
    | [a, b, c, d, e, f, g, h], _ => exact (hne a b c d e f g h rfl).elim

namespace Machine

/-- Settles O9: the guard stops an operation by a flaw or before the first RESET, a ready state by neither. -/
theorem whereTheModelStops : Obligations.WhereTheModelStops := by
  refine ⟨fun s i e h => exec_of_flaw h i, fun s i hcheck hbooted hi => exec_beforeReset hcheck hbooted hi,
    fun s i hstop => ?_, fun cfg => ?_⟩
  · cases hcheck : s.cfg.check with
    | some e => exact .inl ⟨e, rfl, exec_of_flaw hcheck i⟩
    | none =>
      have hi : i ≠ .reset := by
        rintro rfl
        exact hstop ⟨_, execReset_of hcheck⟩
      have hbooted : s.booted = false :=
        Bool.eq_false_iff.mpr fun hb => hstop ⟨_, exec_of_ready ⟨hcheck, hb⟩ i⟩
      exact .inr ⟨hbooted, hi, exec_beforeReset hcheck hbooted hi⟩
  · have hres : 2 * pwmMargin + 2 ≤ (cfg.pwmRes : Int) ↔ 2 * 10 + 2 ≤ cfg.pwmRes := by
      simp only [pwmMargin]
      omega
    rw [Config.check_iff, Config.hallTableOk_iff, hres]
    constructor
    · rintro ⟨hhall, hpb1, hpb2, hpb3, hpb4, hpb5, ⟨hmin, hmax, hpwm⟩, hmatch, hcodes⟩
      exact ⟨hpb1, hpb2, hpb3, hpb4, hpb5, hmin, hmax, hpwm, hhall, hmatch, hcodes⟩
    · rintro ⟨hpb1, hpb2, hpb3, hpb4, hpb5, hmin, hmax, hpwm, hhall, hmatch, hcodes⟩
      exact ⟨hhall, hpb1, hpb2, hpb3, hpb4, hpb5, ⟨hmin, hmax, hpwm⟩, hmatch, hcodes⟩

end Machine
end Sys2Proof
end

section
/-! SUPPORT. RESET and the values it leaves (70_reset_and_hazards.md R550). -/

namespace Sys2Proof.Machine

/-- The test profile lies in the domains of R8 (log 6). -/
theorem testProfile_legal : Config.testProfile.Legal := by decide +kernel

/-- Settles O7: the state that RESET leaves, for every legal configuration and for the test profile. -/
theorem resetStateHasTheInvariant : Obligations.ResetStateHasTheInvariant :=
  ⟨fun _ ports inputs n hl => resetWith_inv hl ports inputs n, resetWith_inv testProfile_legal Ports.quiet [] 0⟩

/-- Half of a value of at most 17 bits fits a pulse port (R87, R550). -/
theorem pulsePort_half {n : Nat} (h : n < 2 ^ 17) : (pulsePort (n / 2)).toNat = n / 2 := by
  have hport : ((pulsePort (n / 2)).toNat : Int) = n / 2 := pulsePort_of_lt (by omega) (by omega)
  omega

/-- Settles O20: the table is the state that `doReset` builds; both flags read the cleared safety registers. -/
theorem resetGivesEveryRegisterItsValue : Obligations.ResetGivesEveryRegisterItsValue := by
  refine ⟨fun s hcheck => execReset_of hcheck, fun n hn => pulsePort_half hn, fun cfg hl => hl.resets,
    fun a ha => Memory.read_nil ha, fun s t h => ?_⟩
  obtain rfl : t = doReset s := exec_next h
  exact ⟨outEn_doReset s, rfl⟩

end Sys2Proof.Machine
end

section
/-! SUPPORT. A run of bytes 0x00 brings the parser back to IDLE (70_reset_and_hazards.md R564): whatever it received, it
holds the last bytes received, and no alignment of legal length that is still incomplete ends in fifteen bytes 0x00. -/

namespace Sys2Proof.Machine

/-! ### What the parser holds after a byte sequence -/

/-- RX_BYTE leaves the parser as the byte leaves it, whether or not a frame is dispatched (R361 to R366). -/
theorem rxByte_parser (b : Byte) (vbat ibus : Half) (s : State) :
    (opUpdate (.rxByte b vbat ibus) s).parser = (parseByte s.cfg b s.parser).1 := by
  rw [opUpdate]
  obtain ⟨p, hp, hrx⟩ | ⟨p, f, hp, -, hrx⟩ :=
    rxParse_cases b { s with ports := { s.ports with vbat := vbat, ibus := ibus } }
  · rw [hrx, hp]
  · rw [hrx, hp, dispatch_with_parser]

theorem rxByte_admitted {s : State} (h : s.Admitted) (b : Byte) (vbat ibus : Half) :
    (opUpdate (.rxByte b vbat ibus) s).Admitted := by
  rw [opUpdate, (receiverWrites_rxParse b _).eq]
  exact h

/-- Every byte sequence is received, from every parser state, and the parser then holds the last bytes received, frames
dispatched on the way or not. -/
theorem execAll_rxBytes_held (vbat ibus : Half) (bytes : List Byte) {s : State} (h : s.Admitted) (hp : s.parser.Inv) :
    ∃ t, execAll (rxBytes vbat ibus bytes) s = .next t ∧ t.parser.Inv ∧ t.parser.held <:+ s.parser.held ++ bytes := by
  induction bytes generalizing s with
  | nil => exact ⟨s, rfl, hp, by rw [List.append_nil]⟩
  | cons b bytes ih =>
    have hexec : exec (.rxByte b vbat ibus) s = .next (opUpdate (.rxByte b vbat ibus) s) := exec_of_admitted (by simp) h
    have hparser := rxByte_parser b vbat ibus s
    obtain ⟨t, hrun, ht, hheld⟩ := ih (rxByte_admitted h b vbat ibus) (hparser ▸ parseByte_inv hp s.cfg b)
    rw [hparser] at hheld
    refine ⟨t, (execAll_cons_of_next hexec _).trans hrun, ht, ?_⟩
    rw [List.append_cons]
    exact hheld.trans (List.suffix_append_self_iff.mpr (parseByte_scans hp s.cfg b).held)

/-! ### Held bytes that end in 0x00 -/

/-- Where the bytes received end in n bytes 0x00, so do the bytes held. -/
theorem Parser.read_of_zero_tail {p : Parser} {l : List Byte} {n k : Nat} (h : p.held <:+ l ++ List.replicate n 0#8)
    (hk : k < p.idx) (htail : p.idx ≤ k + n) : Memory.read p.buf k = 0#8 := by
  obtain ⟨m, hm⟩ := h
  have hlength : m.length + p.idx = l.length + n := by simpa using congrArg List.length hm
  rw [← Parser.getD_held hk 0#8, ← getD_append_add m, hm, List.getD_append_right _ _ _ _ (by omega)]
  exact List.getD_replicate _ (by omega)

/-- An alignment that is still incomplete holds at most 16 bytes. If it began within the last fifteen, its SOM would be
0x00; if it began right before them, its length would be 0 and it would be complete (R362). -/
theorem Parser.isIdle_of_zero_tail {p : Parser} {l : List Byte} (hp : p.Inv)
    (h : p.held <:+ l ++ List.replicate 15 0#8) : p.IsIdle := by
  cases hr : p.recording with
  | false => exact Parser.isIdle_of_not_recording hp hr
  | true =>
    obtain ⟨-, -, hrec⟩ := hp
    obtain ⟨hpos, hsom, hwaits⟩ := hrec hr
    simp only [maxPayload, frameOverhead] at hwaits
    have hlong : 15 < p.idx := by
      by_contra hshort
      rw [Parser.read_of_zero_tail h hpos (by omega)] at hsom
      exact absurd hsom (by decide)
    obtain ⟨hlegal, hincomplete⟩ := hwaits (by omega)
    rw [Parser.read_of_zero_tail h (k := 1) (by omega) (by omega)] at hincomplete
    exact absurd hincomplete (by simp only [BitVec.toNat_ofNat]; omega)

/-- Settles O12: after fifteen bytes 0x00 the parser holds the last bytes of a sequence that ends in them. -/
theorem fifteenZeroBytesFlushTheParser : Obligations.FifteenZeroBytesFlushTheParser := by
  intro s vbat ibus h hp
  obtain ⟨t, hrun, ht, hheld⟩ := execAll_rxBytes_held vbat ibus (List.replicate 15 0#8) h hp
  exact ⟨t, hrun, Parser.isIdle_of_zero_tail ht hheld⟩

end Sys2Proof.Machine
end
